-- ==== Sys2Proof/Word.lean ====
section
/-! DEFINITION. Sys2Proof/Word.lean: the word types and their plainest arithmetic (R11, R12, R14 of 00_scope.md). -/

namespace Sys2Proof

/-- A byte of a byte stream or byte buffer. -/
abbrev Byte := BitVec 8

/-- A 32-bit word: a command word, a response word, a register value or a binary32 pattern (R14). -/
abbrev Word := BitVec 32

/-- `Mag` of R14: a spectral magnitude, an unsigned integer of `MAGW` = 32 bits. -/
abbrev Mag := BitVec 32

/-- `i16` of R14: a 16-bit two's complement sample. -/
abbrev I16 := BitVec 16

/-- `ceil_div(a, b) = (a + b - 1) div b` (R12). -/
def ceilDiv (a b : Nat) : Nat := (a + b - 1) / b

/-- `tdiv(a, b)` of R12: division truncated toward zero. -/
def tdiv (a b : Int) : Int := Int.tdiv a b

/-- `msb(a)` of R12, for `a >= 1`: the index of the most significant 1 bit. -/
def msb (a : Nat) : Nat := Nat.log2 a

end Sys2Proof
end

