-- ==== Sys2Proof/Syntax.lean ====
section
/-! DEFINITION. Sys2Proof/Syntax.lean: the twenty commands (section 3 of 30_encoding.md, opcode_table.json), one constructor
per row, in the table's order. -/

namespace Sys2Proof

/-- A command with its operands. Reserved fields that must be zero are no operands (R81, R82). -/
inductive Instr where
  /-- `RDREG idx` (R220) -/
  | rdreg (idx : BitVec 8)
  /-- `CATLEN` (R103) -/
  | catlen
  /-- `CATDEF` (R104) -/
  | catdef
  /-- `CATGET idx` (R105) -/
  | catget (idx : BitVec 8)
  /-- `CATNAME idx sub` (R107) -/
  | catname (idx sub : BitVec 8)
  /-- `TXINIT proto volume length` (R140); the payload travels on `HDI` -/
  | txinit (proto : BitVec 4) (volume : BitVec 8) (length : BitVec 12)
  /-- `TXSEND` (R145) -/
  | txsend
  /-- `TXHAS` (R155) -/
  | txhas
  /-- `TXTAKE16` (R156) -/
  | txtake16
  /-- `RXRECV` (R170) -/
  | rxrecv
  /-- `RXISRECV` (R200) -/
  | rxisrecv
  /-- `RXISANA` (R201) -/
  | rxisana
  /-- `RXFTR` (R202) -/
  | rxftr
  /-- `RXFLTR` (R203) -/
  | rxfltr
  /-- `RXFTA` (R204) -/
  | rxfta
  /-- `RXFLTA` (R205) -/
  | rxflta
  /-- `RXTAKE` (R207) -/
  | rxtake
  /-- `RXPROTO` (R208) -/
  | rxproto
  /-- `RXPROTOID` (R209) -/
  | rxprotoid
  /-- `RXSPEC` (R134) -/
  | rxspec
deriving DecidableEq, Repr

end Sys2Proof
end

