-- ==== Sys2Proof/WellFormed.lean ====
section
/-! DEFINITION. Sys2Proof/WellFormed.lean: the operand constraints of the opcode map (section 3 of 30_encoding.md). -/

namespace Sys2Proof

/-- Operand constraints of each command; a command that breaks one is `ILLEGAL` (R89 (d)). -/
def Instr.wellFormed : Instr → Bool
  | .rdreg idx => decide (idx.toNat ≤ 14)
  | .catlen => true
  | .catdef => true
  | .catget idx => decide (idx.toNat ≤ 5)
  | .catname idx sub => decide (sub.toNat ≤ 3) && decide (idx.toNat ≤ 5)
  | .txinit _ _ _ => true
  | .txsend => true
  | .txhas => true
  | .txtake16 => true
  | .rxrecv => true
  | .rxisrecv => true
  | .rxisana => true
  | .rxftr => true
  | .rxfltr => true
  | .rxfta => true
  | .rxflta => true
  | .rxtake => true
  | .rxproto => true
  | .rxprotoid => true
  | .rxspec => true

end Sys2Proof
end

