-- ==== Sys2Proof/Decode.lean ====
section
/-! DEFINITION. Sys2Proof/Decode.lean: the decoder of R91 (30_encoding.md), total on every word and refusing by name (R89),
and the encoder written from the same tables (R81 to R84). -/

namespace Sys2Proof

/-- Why a word is illegal: the cases of R89. -/
inductive DecodeError where
  /-- R89 (a): the opcode is not one of the twenty -/
  | unknownOpcode
  /-- R89 (b): Format N with bits 23..0 not all 0 -/
  | reservedBitsN
  /-- R89 (c): Format I with bits 23..16 not all 0 -/
  | reservedBitsI
  /-- R89 (d): an operand constraint of the opcode map is violated -/
  | operandConstraint
deriving DecidableEq, Repr

/-- The three formats of R81 to R83. -/
inductive Format where
  | n
  | i
  | t
deriving DecidableEq, Repr

/-- `opc = w[31:24]` (R80). -/
def opcField (w : Word) : BitVec 8 := w.extractLsb' 24 8
/-- Bits `[23:0]`, the `zero` field of Format N (R81). -/
def zeroFieldN (w : Word) : BitVec 24 := w.extractLsb' 0 24
/-- Bits `[23:16]`, the `zero` field of Format I (R82). -/
def zeroFieldI (w : Word) : BitVec 8 := w.extractLsb' 16 8
/-- `sub = w[15:8]` (R82). -/
def subField (w : Word) : BitVec 8 := w.extractLsb' 8 8
/-- `idx = w[7:0]` (R82). -/
def idxField (w : Word) : BitVec 8 := w.extractLsb' 0 8
/-- `proto = w[23:20]` (R83). -/
def protoField (w : Word) : BitVec 4 := w.extractLsb' 20 4
/-- `volume = w[19:12]` (R83). -/
def volumeField (w : Word) : BitVec 8 := w.extractLsb' 12 8
/-- `length = w[11:0]` (R83). -/
def lengthField (w : Word) : BitVec 12 := w.extractLsb' 0 12

/-- The opcode map's format column (section 3 of 30_encoding.md); `none` for the 236 unused opcodes. -/
def formatOf (opc : BitVec 8) : Option Format :=
  match opc.toNat with
  | 0x01 => some .i
  | 0x10 => some .n
  | 0x11 => some .n
  | 0x12 => some .i
  | 0x13 => some .i
  | 0x20 => some .t
  | 0x21 => some .n
  | 0x22 => some .n
  | 0x23 => some .n
  | 0x30 => some .n
  | 0x31 => some .n
  | 0x32 => some .n
  | 0x33 => some .n
  | 0x34 => some .n
  | 0x35 => some .n
  | 0x36 => some .n
  | 0x37 => some .n
  | 0x38 => some .n
  | 0x39 => some .n
  | 0x3A => some .n
  | _ => none

/-- The Format N commands of the opcode map. -/
def formatNCommand (opc : BitVec 8) : Option Instr :=
  match opc.toNat with
  | 0x10 => some .catlen
  | 0x11 => some .catdef
  | 0x21 => some .txsend
  | 0x22 => some .txhas
  | 0x23 => some .txtake16
  | 0x30 => some .rxrecv
  | 0x31 => some .rxisrecv
  | 0x32 => some .rxisana
  | 0x33 => some .rxftr
  | 0x34 => some .rxfltr
  | 0x35 => some .rxfta
  | 0x36 => some .rxflta
  | 0x37 => some .rxtake
  | 0x38 => some .rxproto
  | 0x39 => some .rxprotoid
  | 0x3A => some .rxspec
  | _ => none

/-- The Format I commands of the opcode map with their operand constraints: `RDREG` and `CATGET` need `sub = 0` (R82),
and the index ranges are the table's. -/
def formatICommand (opc sub idx : BitVec 8) : Option Instr :=
  match opc.toNat with
  | 0x01 => if sub = 0 ∧ idx.toNat ≤ 14 then some (.rdreg idx) else none
  | 0x12 => if sub = 0 ∧ idx.toNat ≤ 5 then some (.catget idx) else none
  | 0x13 => if sub.toNat ≤ 3 ∧ idx.toNat ≤ 5 then some (.catname idx sub) else none
  | _ => none

/-- The decoding procedure of R91 (its `cfgFault` clause is the step's, R238). -/
def decode (w : Word) : Except DecodeError Instr :=
  match formatOf (opcField w) with
  | none => .error .unknownOpcode
  | some .n =>
    if zeroFieldN w ≠ 0 then .error .reservedBitsN
    else match formatNCommand (opcField w) with
      | some i => .ok i
      | none => .error .unknownOpcode
  | some .i =>
    if zeroFieldI w ≠ 0 then .error .reservedBitsI
    else match formatICommand (opcField w) (subField w) (idxField w) with
      | some i => .ok i
      | none => .error .operandConstraint
  | some .t => .ok (.txinit (protoField w) (volumeField w) (lengthField w))

/-- The bytes of `HDI` that belong to a command (R84): its input data phase. -/
def Instr.dataPhase : Instr → Nat
  | .rdreg _ => 0
  | .catlen => 0
  | .catdef => 0
  | .catget _ => 0
  | .catname _ _ => 0
  | .txinit _ _ length => length.toNat
  | .txsend => 0
  | .txhas => 0
  | .txtake16 => 0
  | .rxrecv => 0
  | .rxisrecv => 0
  | .rxisana => 0
  | .rxftr => 0
  | .rxfltr => 0
  | .rxfta => 0
  | .rxflta => 0
  | .rxtake => 0
  | .rxproto => 0
  | .rxprotoid => 0
  | .rxspec => 0

/-- Format N word (R81). -/
def wordN (opc : BitVec 8) : Word := opc ++ (0 : BitVec 24)
/-- Format I word (R82). -/
def wordI (opc sub idx : BitVec 8) : Word := opc ++ (0 : BitVec 8) ++ sub ++ idx
/-- Format T word (R83). -/
def wordT (opc : BitVec 8) (proto : BitVec 4) (volume : BitVec 8) (length : BitVec 12) : Word :=
  opc ++ proto ++ volume ++ length

/-- The command word of each command, from the opcode map and the formats. -/
def encode : Instr → Word
  | .rdreg idx => wordI 0x01 0 idx
  | .catlen => wordN 0x10
  | .catdef => wordN 0x11
  | .catget idx => wordI 0x12 0 idx
  | .catname idx sub => wordI 0x13 sub idx
  | .txinit proto volume length => wordT 0x20 proto volume length
  | .txsend => wordN 0x21
  | .txhas => wordN 0x22
  | .txtake16 => wordN 0x23
  | .rxrecv => wordN 0x30
  | .rxisrecv => wordN 0x31
  | .rxisana => wordN 0x32
  | .rxftr => wordN 0x33
  | .rxfltr => wordN 0x34
  | .rxfta => wordN 0x35
  | .rxflta => wordN 0x36
  | .rxtake => wordN 0x37
  | .rxproto => wordN 0x38
  | .rxprotoid => wordN 0x39
  | .rxspec => wordN 0x3A

/-- What the decoder reads from an instruction of the opcode table whose bits are `w` (bit 0 the least significant bit
of the one 32-bit word; words on `CMD` have no byte order, R66). -/
def decodeTableWord (nbits w : Nat) : Option Instr :=
  if nbits ≤ 32 ∧ w < 2 ^ nbits then (decode (BitVec.ofNat 32 w)).toOption else none

end Sys2Proof
end

