-- ==== Sys2Proof/Config.lean ====
section
/-! DEFINITION. Sys2Proof/Config.lean: the constants of R7 and R8 (00_scope.md) as named fields, the strap inputs, and the
external functions of R10 as constants without a body. -/

namespace Sys2Proof.Config

/-- `K_BASE_SAMPLE_RATE` (R7); no rule computes with it. -/
def baseSampleRate : Nat := 48000
/-- `K_MAX_SPF` (R7): upper bound of the samples per frame. -/
def maxSpf : Nat := 1024
/-- `K_MAX_DATA_BITS` (R7): upper bound of the tone slots of a group. -/
def maxDataBits : Nat := 256
/-- `K_MAX_DATA_SIZE` (R7): bytes of `txPayload` and `rxData`. -/
def maxDataSize : Nat := 256
/-- `K_MAX_LENGTH` (R7, conflict C1): largest payload length `TXINIT` accepts. -/
def maxLength : Nat := 140
/-- `K_MAX_SPECTRUM_HISTORY` (R7): capacity of the history ring. -/
def maxSpectrumHistory : Nat := 4
/-- `K_MAX_RECORDED_FRAMES` (R7). -/
def maxRecordedFrames : Nat := 1024
/-- `CAT_LEN` (R7). -/
def catLen : Nat := 6

/-- `FREQ_DELTA_BIN` (R8, D11). -/
def freqDeltaBin : Nat := 2
/-- `N_BITS_IN_MARKER` (R8, D11). -/
def nBitsInMarker : Nat := 16
/-- `N_MARKER_FRAMES` (R8, D11). -/
def nMarkerFrames : Nat := 16
/-- `N_POST_MARKER_FRAMES` (R8, D11). -/
def nPostMarkerFrames : Nat := 0
/-- `FRAMES_TO_ANALYZE` (R8, D12). -/
def framesToAnalyze : Nat := 8
/-- `ENC_DATA_OFFSET` (R8, D12). -/
def encDataOffset : Nat := nMarkerFrames - framesToAnalyze + nPostMarkerFrames
/-- `ECC_PARITY`, written `P` (R8, D15). -/
def eccParity : Nat := 3
/-- `ECC_T` (R8, D15): byte errors per block the code must correct. -/
def eccT : Nat := 1
/-- `MARGIN_NUM` (R8, D22). -/
def marginNum : Nat := 3
/-- `MARGIN_DEN` (R8, D22). -/
def marginDen : Nat := 1
/-- `SQUELCH` (R8, D22). -/
def squelch : Nat := 4096
/-- `VOL_MAX` (R8, D17). -/
def volMax : Nat := 100
/-- `TXSPF_MAX` (R8, D6). -/
def txSpfMax : Nat := 4096
/-- `MAGW` (R8, D21); the type `Mag` has this width. -/
def magW : Nat := 32
/-- `DEFAULT_PROTOCOL` (R8, D10). -/
def defaultProtocol : Fin 6 := 1
/-- `MIN_LENGTH` (R8, D8). -/
def minLength : Nat := 1
/-- `NAME_LEN` (R8, D10). -/
def nameLen : Nat := 16
/-- `RXENC_CAP` (R8, D14): bytes of `txEnc` and `rxEnc`. -/
def rxEncCap : Nat := 600
/-- Capacity of `txOut` in samples (R29). -/
def txOutCap : Nat := 65536

/-- The five strap inputs (R6, R250), with the widths of R21. -/
structure Straps where
  /-- `sRin`, Hz -/
  srIn  : BitVec 32
  /-- `sRout`, Hz -/
  srOut : BitVec 32
  /-- `N`, samples per frame -/
  spf   : BitVec 11
  /-- `ssIn`, bytes -/
  ssIn  : BitVec 3
  /-- `ssOut`, bytes -/
  ssOut : BitVec 3
deriving DecidableEq, Repr

/-- The reference configuration (R9). -/
def reference : Straps := { srIn := 48000, srOut := 48000, spf := 1024, ssIn := 2, ssOut := 2 }

/-- Which function an instance binds to the parameter `SPECTRUM` (R10, log 9). -/
inductive SpectrumBinding where
  /-- The external collaborator: nothing is known of it but R130 (`Config.spectrumBin`). -/
  | external
  /-- `SPEC_ID`, the test transform of 95_test_vectors.md section 0. -/
  | specId
deriving DecidableEq, Repr

/-- Which pair an instance binds to `ECC_ENC` and `ECC_DEC` (R10, log 10). -/
inductive EccBinding where
  /-- The external collaborator: nothing is known of it but its operand and result shapes. -/
  | external
  /-- `RS3`, the reference instance of R114. -/
  | rs3
deriving DecidableEq, Repr

/-- The bindings of one instance. -/
structure Primitives where
  spectrum : SpectrumBinding
  ecc      : EccBinding
deriving DecidableEq, Repr

/-- Free value (log 9): the magnitude the external `SPECTRUM` gives for bin `k` of the frame `x` of `n` sample words
(R130: total, stateless, 32-bit unsigned). -/
opaque spectrumBin : (n : Nat) → (x : List Word) → (k : Nat) → Mag

/-- Free value (log 10): parity byte `i` the external `ECC_ENC` gives for the data block `d` (R111). -/
opaque eccParityByte : (d : List Byte) → (i : Nat) → Byte

/-- Free value (log 10): the verdict of the external `ECC_DEC` on the block `r`: `none` for `fail`, else the
corrected bit (R112). -/
opaque eccVerdict : (r : List Byte) → Option Bool

/-- Free value (log 10): data byte `i` of the external `ECC_DEC`'s result on the block `r` (R112). -/
opaque eccDataByte : (r : List Byte) → (i : Nat) → Byte

end Sys2Proof.Config
end

