-- ==== Sys2Proof/Machine/Ecc.lean ====
section
/-! DEFINITION. Machine/Ecc.lean: the error-correcting-code primitive: its contract ECC-1 to ECC-3 (R110 to R113 of
41_frame_codec.md), the reference instance `RS3` (R114), and what an instance's binding selects. -/

namespace Sys2Proof.Machine

open Sys2Proof.Config

/-- A pair `ECC_ENC`, `ECC_DEC` (R110): the parity of a data block, and `fail` (`none`) or the corrected data block with
the corrected bit. -/
structure EccCode where
  enc : List Byte → List Byte
  dec : List Byte → Option (List Byte × Bool)

/-- In how many byte positions two blocks of one length differ. -/
def byteDistance : List Byte → List Byte → Nat
  | a :: as, b :: bs => (if a = b then 0 else 1) + byteDistance as bs
  | _, _ => 0

/-- A codeword: `d ++ ECC_ENC(d)` (R110, R111). -/
def EccCode.codeword (c : EccCode) (d : List Byte) : List Byte := d ++ c.enc d

/-- The contract of R111 to R113 for data blocks of `k` bytes: lengths, ECC-1 (clean), ECC-2 (one wrong byte is corrected)
and ECC-3 (two wrong bytes fail). -/
structure EccCode.Contract (c : EccCode) (k : Nat) : Prop where
  enc_length : ∀ d, d.length = k → (c.enc d).length = eccParity
  dec_length : ∀ r d b, r.length = k + eccParity → c.dec r = some (d, b) → d.length = k
  clean : ∀ d, d.length = k → c.dec (c.codeword d) = some (d, false)
  corrects : ∀ d r, d.length = k → r.length = k + eccParity →
    1 ≤ byteDistance r (c.codeword d) → byteDistance r (c.codeword d) ≤ eccT → c.dec r = some (d, true)
  detects : ∀ d r, d.length = k → r.length = k + eccParity →
    byteDistance r (c.codeword d) = eccT + 1 → c.dec r = none

/-- Multiplication by `x` in GF(2^8) with reduction polynomial `0x11D` (R114). -/
def gfTimesX (a : Byte) : Byte := (a <<< 1) ^^^ (if a.msb then 0x1D else 0)

/-- Multiplication in GF(2^8) (R114), by the bits of `b` from the `n`-th down. -/
def gfMulBits (a b : Byte) : Nat → Byte
  | 0 => 0
  | n + 1 => gfTimesX (gfMulBits a b n) ^^^ (if b.getLsbD (7 - n) then a else 0)

/-- Multiplication in GF(2^8) (R114). -/
def gfMul (a b : Byte) : Byte := gfMulBits a b 8

/-- `a^j` for the primitive element `a = 0x02` (R114). -/
def gfAlphaPow : Nat → Byte
  | 0 => 1
  | j + 1 => gfTimesX (gfAlphaPow j)

/-- One step of the division of `d(x) * x^3` by `g(x) = x^3 + 0x07 x^2 + 0x0E x + 0x08`: the remainder's three
coefficients, highest degree first, after one more data byte. -/
def rs3Step (r : Byte × Byte × Byte) (b : Byte) : Byte × Byte × Byte :=
  let fb := b ^^^ r.1
  (r.2.1 ^^^ gfMul 0x07 fb, r.2.2 ^^^ gfMul 0x0E fb, gfMul 0x08 fb)

/-- `RS3`'s `ECC_ENC` (R114): the remainder of `d(x) * x^3` divided by `g(x)`. -/
def rs3Enc (d : List Byte) : List Byte :=
  let r := d.foldl rs3Step (0, 0, 0)
  [r.1, r.2.1, r.2.2]

/-- `r(x0)` by Horner's rule, first byte the highest-degree coefficient (R114). -/
def rs3Eval (x0 : Byte) (r : List Byte) : Byte := r.foldl (fun acc b => gfMul acc x0 ^^^ b) 0

/-- `RS3`'s `ECC_DEC` (R114), by the syndromes `S_i = r(a^i)`. -/
def rs3Dec (r : List Byte) : Option (List Byte × Bool) :=
  let n := r.length
  let k := n - eccParity
  let s0 := rs3Eval (gfAlphaPow 0) r
  let s1 := rs3Eval (gfAlphaPow 1) r
  let s2 := rs3Eval (gfAlphaPow 2) r
  if s0 = 0 ∧ s1 = 0 ∧ s2 = 0 then some (r.take k, false)
  else if s0 ≠ 0 ∧ s1 ≠ 0 ∧ s2 ≠ 0 ∧ gfMul s1 s1 = gfMul s0 s2 then
    match (List.range n).find? (fun j => gfMul s0 (gfAlphaPow j) == s1) with
    | some j => some ((r.modify (n - 1 - j) (· ^^^ s0)).take k, true)
    | none => none
  else none

/-- The reference instance `RS3` (R114). -/
def rs3 : EccCode := { enc := rs3Enc, dec := rs3Dec }

/-- The external primitive: the constants of Config.lean given the operand and result shapes of R111 and R112. -/
def externalEcc : EccCode :=
  { enc := fun d => (List.range eccParity).map (eccParityByte d)
    dec := fun r => (eccVerdict r).map fun c => ((List.range (r.length - eccParity)).map (eccDataByte r), c) }

/-- The code an instance uses. -/
def eccCode : EccBinding → EccCode
  | .external => externalEcc
  | .rs3 => rs3

end Sys2Proof.Machine
end

