-- ==== Sys2Proof/Machine/Codec.lean ====
section
/-! DEFINITION. Machine/Codec.lean: the frame codec (41_frame_codec.md): sizes (R115 to R117), the bit-to-slot map (R119),
`FEC_ENCODE` (R120), `HDR_CHECK` (R121), `FEC_DECODE` (R122). -/

namespace Sys2Proof.Machine

open Sys2Proof.Config

/-- `nBlocks(len, K)` (R115). -/
def nBlocks (len k : Nat) : Nat := ceilDiv (len + 1) k

/-- `encLen(len, K)` (R116). -/
def encLen (len k : Nat) : Nat := nBlocks len k * (k + eccParity)

/-- `nGroups(len, K)` (R117). -/
def nGroups (len k : Nat) : Nat := ceilDiv (encLen len k) k

/-- The header group index `hg(K)` (R117). -/
def headerGroup (k : Nat) : Nat := ceilDiv (k + eccParity) k - 1

/-- The framed payload `FP` (R115): length byte, payload, zero padding to whole blocks. -/
def framedPayload (pl : List Byte) (len k : Nat) : List Byte :=
  BitVec.ofNat 8 len :: (pl.take len ++ List.replicate (nBlocks len k * k - len - 1) 0)

/-- Element `i` of a byte list cut into pieces of `k` bytes. -/
def piece (l : List Byte) (i k : Nat) : List Byte := (l.drop (i * k)).take k

/-- Whether `TXINIT` and the header accept a length (R120, R121, R141 (1)). -/
def lengthOk (len : Nat) : Bool := decide (minLength ≤ len) && decide (len ≤ maxLength)

/-- `FEC_ENCODE(pl, len, K)` (R120). -/
def fecEncode (c : EccCode) (pl : List Byte) (len k : Nat) : Option (List Byte) :=
  if lengthOk len then
    some ((List.range (nBlocks len k)).flatMap fun i => c.codeword (piece (framedPayload pl len k) i k))
  else none

/-- `HDR_CHECK(enc, K)` (R121). -/
def hdrCheck (c : EccCode) (enc : List Byte) (k : Nat) : Option Nat :=
  match c.dec (piece enc 0 (k + eccParity)) with
  | none => none
  | some (d, _) =>
    let len := (d.getD 0 0).toNat
    if lengthOk len then some len else none

/-- The loop of R122 over the blocks of the list `is`: their data appended, their corrected bits joined. -/
def decodeBlocks (c : EccCode) (enc : List Byte) (k : Nat) : List Nat → List Byte → Bool → Option (List Byte × Bool)
  | [], fp, b => some (fp, b)
  | i :: is, fp, b =>
    match c.dec (piece enc i (k + eccParity)) with
    | none => none
    | some (d, bi) => decodeBlocks c enc k is (fp ++ d) (b || bi)

/-- The result `ok(pl, len, corrected)` of `FEC_DECODE`. -/
structure Decoded where
  pl        : List Byte
  len       : Nat
  corrected : Bool
deriving DecidableEq, Repr

/-- `FEC_DECODE(enc, K)` (R122). -/
def fecDecode (c : EccCode) (enc : List Byte) (k : Nat) : Option Decoded :=
  match c.dec (piece enc 0 (k + eccParity)) with
  | none => none
  | some (d0, b0) =>
    let len := (d0.getD 0 0).toNat
    if lengthOk len then
      match decodeBlocks c enc k (List.range' 1 (nBlocks len k - 1)) d0 b0 with
      | none => none
      | some (fp, b) => some { pl := (fp.drop 1).take len, len := len, corrected := b }
    else none

/-- Byte `i` of group `g` of an encoded stream with `valid` valid bytes (R117): 0 at or beyond them. -/
def groupByte (enc : List Byte) (valid k g i : Nat) : Byte :=
  if g * k + i < valid then enc.getD (g * k + i) 0 else 0

/-- `bit(g, b)` (R119). -/
def groupBit (enc : List Byte) (valid k g b : Nat) : Bool :=
  (groupByte enc valid k g (b / 8)).getLsbD (b % 8)

/-- The byte whose bit `j` is `bits (8i + j)` (R119, R182). -/
def byteOfBits (bits : Nat → Bool) (i : Nat) : Byte :=
  BitVec.ofNat 8 (((List.range 8).map fun j => if bits (8 * i + j) then 2 ^ j else 0).sum)

end Sys2Proof.Machine
end

