-- ==== Sys2Proof/Machine/Operands.lean ====
section
/-! DEFINITION. Machine/Operands.lean: the byte and sample forms of 20_memory.md section 3: little-endian bytes (R66), input
sample words (R67), output sample bytes (R68) and `I16TOF32` (R152). -/

namespace Sys2Proof.Machine

/-- `le16(v)` (R66). -/
def le16 (v : BitVec 16) : List Byte := [v.extractLsb' 0 8, v.extractLsb' 8 8]

/-- `le32(v)` (R66). -/
def le32 (v : Word) : List Byte :=
  [v.extractLsb' 0 8, v.extractLsb' 8 8, v.extractLsb' 16 8, v.extractLsb' 24 8]

/-- `from_le(bytes)` (R13). -/
def fromLe : List Byte → Nat
  | [] => 0
  | b :: bs => b.toNat + 256 * fromLe bs

/-- `I16TOF32(v)` (R152): the binary32 word of `v / 32768`. -/
def i16ToF32 (v : I16) : Word :=
  if v = 0 then 0
  else
    let sign : Nat := if v.toInt < 0 then 1 else 0
    let a : Nat := v.toInt.natAbs
    let m : Nat := msb a
    BitVec.ofNat 32 ((sign <<< 31) ||| ((112 + m) <<< 23) ||| ((a <<< (23 - m)) &&& 0x7FFFFF))

/-- Input sample `i` of a frame of `ssIn`-byte samples (R67): 16-bit PCM is converted by `I16TOF32`, a 4-byte word is taken
unchanged. -/
def inputSample (ssIn : Nat) (frame : List Byte) (i : Nat) : Word :=
  if ssIn = 2 then i16ToF32 (BitVec.ofNat 16 (fromLe ((frame.drop (2 * i)).take 2)))
  else BitVec.ofNat 32 (fromLe ((frame.drop (4 * i)).take 4))

/-- The `n` sample words of a frame (R67). -/
def frameWords (ssIn n : Nat) (frame : List Byte) : List Word :=
  (List.range n).map (inputSample ssIn frame)

/-- One output sample as `ssOut` bytes (R68). -/
def outputSample (ssOut : Nat) (v : I16) : List Byte :=
  if ssOut = 2 then le16 v else le32 (i16ToF32 v)

/-- A unit's samples as bytes, in order (R154). -/
def outputBytes (ssOut : Nat) (smp : List I16) : List Byte := smp.flatMap (outputSample ssOut)

end Sys2Proof.Machine
end

