-- ==== Sys2Proof/Machine/Straps.lean ====
section
/-! DEFINITION. Machine/Straps.lean: what reset computes from the five straps: the legality of a configuration (R251) and the
derived-constant registers (R22). -/

namespace Sys2Proof.Machine

open Sys2Proof.Config

/-- `L = (N * sRout) div sRin` (R16). -/
def txSpfOf (p : Straps) : Nat := (p.spf.toNat * p.srOut.toNat) / p.srIn.toNat

/-- `NBINS = (N div 2) + 1` (R16). -/
def nBinsOf (p : Straps) : Nat := p.spf.toNat / 2 + 1

/-- `FB = N * ssIn` (R16). -/
def frameBytesOf (p : Straps) : Nat := p.spf.toNat * p.ssIn.toNat

/-- `HZ_PER_BIN` (R22): `sRin / N` in UQ16.16, saturated. -/
def hzPerBinOf (p : Straps) : Nat := min (2 ^ 32 - 1) ((p.srIn.toNat * 65536) / p.spf.toNat)

/-- `FREQ_DELTA_HZ` (R22): `FREQ_DELTA_BIN * sRin / N` in UQ16.16, saturated. -/
def freqDeltaHzOf (p : Straps) : Nat := min (2 ^ 32 - 1) ((freqDeltaBin * p.srIn.toNat * 65536) / p.spf.toNat)

/-- Legal configuration: the seven conditions (a) to (g) of R251. -/
def legalConfig (p : Straps) : Bool :=
  decide (1 ≤ p.srIn.toNat) &&
  decide (1 ≤ p.srOut.toNat) &&
  (decide (1 ≤ p.spf.toNat) && decide (p.spf.toNat ≤ maxSpf)) &&
  (p.ssIn == 2 || p.ssIn == 4) &&
  (p.ssOut == 2 || p.ssOut == 4) &&
  decide ((p.spf.toNat * p.srOut.toNat) % p.srIn.toNat = 0) &&
  (decide (1 ≤ txSpfOf p) && decide (txSpfOf p ≤ txSpfMax))

end Sys2Proof.Machine
end

