-- ==== Sys2Proof/Machine/State.lean ====
section
/-! DEFINITION. Machine/State.lean: the architectural state (10_state.md), grouped by owner as R20 groups it, the reasons a
step can stop, and the state after reset (R46, R250). -/

namespace Sys2Proof.Machine

open Sys2Proof.Config

/-- A catalog index `0..5`: what the 4-bit protocol registers hold (R26, R36, R40; log 12). -/
abbrev ProtoId := Fin 6

/-- Configuration and derived-constant registers and the fault bit (R21, R22, R41); written by reset only. -/
structure CfgState where
  srIn              : BitVec 32
  srOut             : BitVec 32
  spf               : BitVec 11
  ssIn              : BitVec 3
  ssOut             : BitVec 3
  hzPerBin          : BitVec 32
  freqDeltaBin      : BitVec 8
  freqDeltaHz       : BitVec 32
  nBitsInMarker     : BitVec 8
  nMarkerFrames     : BitVec 8
  nPostMarkerFrames : BitVec 8
  encDataOffset     : BitVec 8
  txSpf             : BitVec 13
  nBins             : BitVec 10
  cfgFault          : Bool
deriving DecidableEq, Repr

/-- TxState (R26 to R30). -/
structure TxState where
  protocolId : ProtoId
  len        : BitVec 8
  volume     : BitVec 7
  payload    : List Byte
  enc        : List Byte
  encLen     : BitVec 10
  groups     : BitVec 10
  unit       : BitVec 10
  hasData    : Bool
  out        : List I16
  outCount   : BitVec 17
  amp16Count : BitVec 17
deriving DecidableEq, Repr

/-- RxState (R30 to R40). `cand = none` is `NONE` (R36). -/
structure RxState where
  analyzing           : Bool
  receiving           : Bool
  framesToAnalyze     : BitVec 11
  framesLeftToAnalyze : BitVec 11
  framesToRecord      : BitVec 11
  framesLeftToRecord  : BitVec 11
  spec                : List Mag
  specNew             : Bool
  histBuf             : List (List Mag)
  histHead            : BitVec 2
  histCount           : BitVec 3
  histSum             : List (BitVec 34)
  frameBytes          : List Byte
  frameFill           : BitVec 13
  cand                : Option ProtoId
  curProto            : ProtoId
  accOn               : List (BitVec 64)
  accNf               : List (BitVec 64)
  enc                 : List Byte
  recorded            : List (List Word)
  data                : List Byte
  dataLength          : BitVec 9
  protocolId          : ProtoId
  rxNew               : Bool
  corrected           : Bool
deriving DecidableEq, Repr

/-- The six streams (R63), each first in first out, its head the oldest unit. `ain` is cut into the environment's answers to
successive pulls (R65, log 6). -/
structure Streams where
  cmd  : List Word
  hdi  : List Byte
  rsp  : List Word
  hdo  : List Byte
  aout : List Byte
  ain  : List (List Byte)
deriving DecidableEq, Repr

/-- The state of one engine instance with the inputs the step reads. -/
structure State where
  /-- configuration registers, derived constants, `cfgFault` -/
  cfg     : CfgState
  /-- transmit state -/
  tx      : TxState
  /-- receive state -/
  rx      : RxState
  /-- the six streams -/
  io      : Streams
  /-- the reset input: the straps it latches when asserted (R250, log 8) -/
  resetIn : Option Config.Straps
  /-- the functions bound to `SPECTRUM`, `ECC_ENC`, `ECC_DEC` (R10, log 9, 10) -/
  prims   : Config.Primitives
deriving DecidableEq, Repr

/-- Why a step does not happen. Both are stuck states, no fault of the hardware (log 3): the host's next word or bytes end
them, and no state is lost. -/
inductive Fault where
  /-- Raised by `step` when `CMD` is empty and reset is not asserted: the engine waits for a command word (R250). Safe. -/
  | noCommand
  /-- Raised by `TXINIT` when `HDI` holds fewer bytes than its length field: the command has no step until they are present
  (R64, R262). Safe. -/
  | hdiStarved
deriving DecidableEq, Repr

/-- Why the model gives no meaning. -/
inductive Refusal where
  /-- Raised by `exec` for an instruction without a meaning; no arm of the finished model raises it. Safe. -/
  | notModelled (mnemonic : String)
deriving DecidableEq, Repr

/-- The registers reset writes from the straps (R250 (1) to (3)). With an illegal configuration the derived registers are
not written; they hold 0 here, which no command shows (R46, log 14). -/
def CfgState.afterReset (p : Config.Straps) : CfgState :=
  let ok := legalConfig p
  let derived (v : Nat) : Nat := if ok then v else 0
  { srIn := p.srIn
    srOut := p.srOut
    spf := p.spf
    ssIn := p.ssIn
    ssOut := p.ssOut
    hzPerBin := BitVec.ofNat 32 (derived (hzPerBinOf p))
    freqDeltaBin := BitVec.ofNat 8 (derived Config.freqDeltaBin)
    freqDeltaHz := BitVec.ofNat 32 (derived (freqDeltaHzOf p))
    nBitsInMarker := BitVec.ofNat 8 (derived Config.nBitsInMarker)
    nMarkerFrames := BitVec.ofNat 8 (derived Config.nMarkerFrames)
    nPostMarkerFrames := BitVec.ofNat 8 (derived Config.nPostMarkerFrames)
    encDataOffset := BitVec.ofNat 8 (derived Config.encDataOffset)
    txSpf := BitVec.ofNat 13 (derived (txSpfOf p))
    nBins := BitVec.ofNat 10 (derived (nBinsOf p))
    cfgFault := !ok }

/-- Transmit state after reset (R46). -/
def TxState.afterReset : TxState :=
  { protocolId := Config.defaultProtocol
    len := 0
    volume := 0
    payload := List.replicate Config.maxDataSize 0
    enc := List.replicate Config.rxEncCap 0
    encLen := 0
    groups := 0
    unit := 0
    hasData := false
    out := List.replicate Config.txOutCap 0
    outCount := 0
    amp16Count := 0 }

/-- Receive state after reset (R46), for the straps' frame size and number of bins. -/
def RxState.afterReset (p : Config.Straps) : RxState :=
  { analyzing := true
    receiving := false
    framesToAnalyze := BitVec.ofNat 11 Config.framesToAnalyze
    framesLeftToAnalyze := BitVec.ofNat 11 Config.framesToAnalyze
    framesToRecord := 0
    framesLeftToRecord := 0
    spec := List.replicate (nBinsOf p) 0
    specNew := false
    histBuf := List.replicate Config.maxSpectrumHistory (List.replicate (nBinsOf p) 0)
    histHead := 0
    histCount := 0
    histSum := List.replicate (nBinsOf p) 0
    frameBytes := List.replicate (frameBytesOf p) 0
    frameFill := 0
    cand := none
    curProto := Config.defaultProtocol
    accOn := List.replicate Config.maxDataBits 0
    accNf := List.replicate Config.maxDataBits 0
    enc := List.replicate Config.rxEncCap 0
    recorded := []
    data := List.replicate Config.maxDataSize 0
    dataLength := 0
    protocolId := Config.defaultProtocol
    rxNew := false
    corrected := false }

/-- All six streams empty (R250 (4)). -/
def Streams.empty : Streams := { cmd := [], hdi := [], rsp := [], hdo := [], aout := [], ain := [] }

/-- Reset with the straps `p` of an instance whose parameters are bound by `b` (R46, R250). -/
def State.afterReset (b : Config.Primitives) (p : Config.Straps) : State :=
  { cfg := CfgState.afterReset p
    tx := TxState.afterReset
    rx := RxState.afterReset p
    io := Streams.empty
    resetIn := none
    prims := b }

/-- The machine right after reset with the straps of the reference configuration (R9, log 4), the external `SPECTRUM`
(log 9) and the reference code `RS3` (R114, log 10). -/
def State.reset : State :=
  State.afterReset { spectrum := .external, ecc := .rs3 } Config.reference

end Sys2Proof.Machine
end

