-- ==== Sys2Proof/Machine/Ops.lean ====
section
/-! DEFINITION. Machine/Ops.lean: the operations every command shares: the response (R85), the `CFGFAULT` gate (R235), the
refusal of an illegal word (R234), the stream primitives of R13 and the buffer write. There is no trap entry and no trap
return (R239, R240). -/

namespace Sys2Proof.Machine

/-- The outcome of a command. -/
abbrev Result := Host.Outcome State Fault Refusal

/-- Status codes (R86). -/
inductive Status where
  | ok
  | illegal
  | cfgFault
deriving DecidableEq, Repr

/-- The status word: the code in bits `[3:0]`, 0 above (R85, R86). -/
def Status.word : Status → Word
  | .ok => 0
  | .illegal => 1
  | .cfgFault => 2

/-- `respond(status, value)`: the status word, then the value word, on `RSP` (R85). -/
def respond (s : State) (status : Status) (value : Word) : State :=
  { s with io := { s.io with rsp := s.io.rsp ++ [status.word, value] } }

/-- A command that ends in `respond(OK, value)`. -/
def answer (s : State) (value : Word) : Result := .next (respond s .ok value)

/-- The `CFGFAULT` gate: while `cfgFault = 1` the only effect is `respond(CFGFAULT, 0)` (R235, log 2). -/
def whenConfigured (s : State) (body : Result) : Result :=
  if s.cfg.cfgFault then .next (respond s .cfgFault 0) else body

/-- IllegalCommand: `respond(ILLEGAL, 0)` and nothing else (R89, R234, log 1). -/
def refuseIllegal (s : State) : Result := whenConfigured s (.next (respond s .illegal 0))

/-- `Pop(HDI, n)` (R13, R64): the first `n` bytes and the rest; `none` while fewer are present. -/
def popBytes (hdi : List Byte) (n : Nat) : Option (List Byte × List Byte) :=
  if n ≤ hdi.length then some (hdi.take n, hdi.drop n) else none

/-- `Pull(AIN, max)` (R13, R65): the environment's answer and what is left of `AIN`. The head of `ain` is the answer to this
pull; of a longer one the first `max` bytes are taken and the rest stays on the stream; with no answer queued the pull
returns 0 bytes (log 6). -/
def pullBytes (ain : List (List Byte)) (max : Nat) : List Byte × List (List Byte) :=
  match ain with
  | [] => ([], [])
  | chunk :: later => (chunk.take max, if chunk.length ≤ max then later else chunk.drop max :: later)

/-- `Push(HDO, bytes)` (R13). -/
def pushHdo (s : State) (bytes : List Byte) : State :=
  { s with io := { s.io with hdo := s.io.hdo ++ bytes } }

/-- `Push(AOUT, bytes)` (R13, R154). -/
def pushAout (s : State) (bytes : List Byte) : State :=
  { s with io := { s.io with aout := s.io.aout ++ bytes } }

/-- `buf[off .. off+len(data)) <- data`: the elements before and after keep their values. -/
def overwrite {α : Type} (buf : List α) (off : Nat) (data : List α) : List α :=
  buf.take off ++ (data ++ buf.drop (off + data.length))

end Sys2Proof.Machine
end

