-- ==== Sys2Proof/Machine/Catalog.lean ====
section
/-! DEFINITION. Machine/Catalog.lean: the protocol catalog (40_catalog.md): the ROM (R101, R102), the derived symbols of R15,
`PROTO_OK` (R106), the marker word (R108), and the commands `CATLEN`, `CATDEF`, `CATGET`, `CATNAME`. -/

namespace Sys2Proof.Machine

open Sys2Proof.Config

/-- A catalog entry (R101) with its 16-byte name (R102). -/
structure CatEntry where
  freqStart   : Nat
  framesPerTx : Nat
  bytesPerTx  : Nat
  name        : List Byte
deriving DecidableEq, Repr

/-- A name in the name ROM: zero bytes up to `NAME_LEN` (R102). -/
def romName (ascii : List Byte) : List Byte := ascii ++ List.replicate (nameLen - ascii.length) 0

/-- The catalog ROM: the six rows of R101 and the six names of R102. -/
def catalogRom : List CatEntry :=
  [ { freqStart := 40, framesPerTx := 9, bytesPerTx := 3, name := romName [0x4E, 0x6F, 0x72, 0x6D, 0x61, 0x6C] },
    { freqStart := 40, framesPerTx := 6, bytesPerTx := 3, name := romName [0x46, 0x61, 0x73, 0x74] },
    { freqStart := 40, framesPerTx := 3, bytesPerTx := 3, name := romName [0x46, 0x61, 0x73, 0x74, 0x65, 0x73, 0x74] },
    { freqStart := 320, framesPerTx := 9, bytesPerTx := 3,
      name := romName [0x5B, 0x55, 0x5D, 0x20, 0x4E, 0x6F, 0x72, 0x6D, 0x61, 0x6C] },
    { freqStart := 320, framesPerTx := 6, bytesPerTx := 3, name := romName [0x5B, 0x55, 0x5D, 0x20, 0x46, 0x61, 0x73, 0x74] },
    { freqStart := 320, framesPerTx := 3, bytesPerTx := 3,
      name := romName [0x5B, 0x55, 0x5D, 0x20, 0x46, 0x61, 0x73, 0x74, 0x65, 0x73, 0x74] } ]

/-- `catalog[p]` (R100). -/
def catalog (p : ProtoId) : CatEntry := catalogRom.get p

/-- `fs(p)` (R15). -/
def fs (p : ProtoId) : Nat := (catalog p).freqStart
/-- `F(p)` (R15). -/
def framesPerGroup (p : ProtoId) : Nat := (catalog p).framesPerTx
/-- `K(p)` (R15). -/
def bytesPerGroup (p : ProtoId) : Nat := (catalog p).bytesPerTx
/-- `S(p) = 8 * K(p)` (R15). -/
def slots (p : ProtoId) : Nat := 8 * bytesPerGroup p
/-- `T(p) = max(S(p), N_BITS_IN_MARKER)` (R15). -/
def ampSlots (p : ProtoId) : Nat := max (slots p) nBitsInMarker
/-- `bin_on(p, b)` (R15). -/
def binOn (p : ProtoId) (b : Nat) : Nat := fs p + freqDeltaBin * b
/-- `bin_off(p, b)` (R15). -/
def binOff (p : ProtoId) (b : Nat) : Nat := binOn p b + 1

/-- The catalog index a numeric field names, if it names one. -/
def protoOf (n : Nat) : Option ProtoId := if h : n < 6 then some ⟨n, h⟩ else none

/-- `PROTO_OK(p)` for `n` samples per frame and `l` output samples per frame: the five conditions of R106. -/
def protoOkAt (n l : Nat) (p : ProtoId) : Bool :=
  (decide (1 ≤ framesPerGroup p) && decide (1 ≤ bytesPerGroup p)) &&
  decide (slots p ≤ maxDataBits) &&
  decide (fs p + freqDeltaBin * ampSlots p - 1 ≤ n / 2) &&
  decide (2 * (fs p + freqDeltaBin * (ampSlots p - 1)) < l) &&
  decide (encDataOffset + nGroups maxLength (bytesPerGroup p) * framesPerGroup p ≤ maxRecordedFrames)

/-- `PROTO_OK(p)` under the latched configuration (R106). -/
def protoOk (cfg : CfgState) (p : ProtoId) : Bool := protoOkAt cfg.spf.toNat cfg.txSpf.toNat p

/-- The marker word `MW(p)` (R108). -/
def markerWord (p : ProtoId) : BitVec 16 :=
  let i : BitVec 16 := BitVec.ofNat 16 p.val
  0x0055 ||| ((i &&& 0xF) <<< 8) ||| ((~~~i &&& 0xF) <<< 12)

/-- Marker slot `s` is on (R108). -/
def markerOn (p : ProtoId) (s : Nat) : Bool := (markerWord p).getLsbD s

/-- The packed catalog entry (R88). -/
def packedEntry (p : ProtoId) : Word :=
  (0 : BitVec 4) ++ BitVec.ofNat 8 (bytesPerGroup p) ++ BitVec.ofNat 8 (framesPerGroup p) ++ BitVec.ofNat 12 (fs p)

/-- The name word `w` of entry `p` (R88, R107). -/
def nameWord (p : ProtoId) (w : Nat) : Word :=
  BitVec.ofNat 32 (fromLe (((catalog p).name.drop (4 * w)).take 4))

/-- `CATLEN` (R103). -/
def execCatlen (s : State) : Result := whenConfigured s (answer s (BitVec.ofNat 32 catLen))

/-- `CATDEF` (R104). -/
def execCatdef (s : State) : Result := whenConfigured s (answer s (BitVec.ofNat 32 defaultProtocol.val))

/-- `CATGET` (R105); an index above 5 is `ILLEGAL`. -/
def execCatget (idx : BitVec 8) (s : State) : Result :=
  match protoOf idx.toNat with
  | some p => whenConfigured s (answer s (packedEntry p))
  | none => refuseIllegal s

/-- `CATNAME` (R107); an index above 5 or a word offset above 3 is `ILLEGAL`. -/
def execCatname (idx sub : BitVec 8) (s : State) : Result :=
  match protoOf idx.toNat with
  | some p => if sub.toNat ≤ 3 then whenConfigured s (answer s (nameWord p sub.toNat)) else refuseIllegal s
  | none => refuseIllegal s

end Sys2Proof.Machine
end

