-- ==== Sys2Proof/Machine/Flags.lean ====
section
/-! DEFINITION. Machine/Flags.lean: the `STATUS` word assembled from the flags of R25 (R221 of 46_system.md). -/

namespace Sys2Proof.Machine

/-- A one-bit flag as a value word. -/
def flagWord (b : Bool) : Word := if b then 1 else 0

/-- `STATUS` bit 5: `txAmp16Count != 0` (R29, R221). -/
def tx16Flag (s : State) : Bool := s.tx.amp16Count != 0

/-- The `STATUS` word (R221): bits 6 down to 0 are `RXCORR`, `TX16`, `SPECNEW`, `RXNEW`, `RCV`, `ANA`, `HASTX`; bits 31 to 7
read 0. -/
def statusWord (s : State) : Word :=
  (0 : BitVec 25) ++ BitVec.ofBool s.rx.corrected ++ BitVec.ofBool (tx16Flag s) ++ BitVec.ofBool s.rx.specNew ++
    BitVec.ofBool s.rx.rxNew ++ BitVec.ofBool s.rx.receiving ++ BitVec.ofBool s.rx.analyzing ++
    BitVec.ofBool s.tx.hasData

end Sys2Proof.Machine
end

