-- ==== Sys2Proof/Machine/Accessors.lean ====
section
/-! DEFINITION. Machine/Accessors.lean: the receive-side accessors (45_rx_accessors.md). -/

namespace Sys2Proof.Machine

/-- `RXISRECV` (R200). -/
def execRxisrecv (s : State) : Result := whenConfigured s (answer s (flagWord s.rx.receiving))

/-- `RXISANA` (R201). -/
def execRxisana (s : State) : Result := whenConfigured s (answer s (flagWord s.rx.analyzing))

/-- `RXFTR` (R202). -/
def execRxftr (s : State) : Result := whenConfigured s (answer s (s.rx.framesToRecord.setWidth 32))

/-- `RXFLTR` (R203). -/
def execRxfltr (s : State) : Result := whenConfigured s (answer s (s.rx.framesLeftToRecord.setWidth 32))

/-- `RXFTA` (R204). -/
def execRxfta (s : State) : Result := whenConfigured s (answer s (s.rx.framesToAnalyze.setWidth 32))

/-- `RXFLTA` (R205). -/
def execRxflta (s : State) : Result := whenConfigured s (answer s (s.rx.framesLeftToAnalyze.setWidth 32))

/-- `RXTAKE` (R207). -/
def execRxtake (s : State) : Result :=
  whenConfigured s
    (answer
      (pushHdo { s with rx := { s.rx with rxNew := false, dataLength := 0 } } (s.rx.data.take s.rx.dataLength.toNat))
      (s.rx.dataLength.setWidth 32))

/-- `RXPROTO` (R208). -/
def execRxproto (s : State) : Result := whenConfigured s (answer s (packedEntry s.rx.protocolId))

/-- `RXPROTOID` (R209). -/
def execRxprotoid (s : State) : Result :=
  whenConfigured s (answer s (BitVec.ofNat 32 s.rx.protocolId.val))

end Sys2Proof.Machine
end

