-- ==== Sys2Proof/Machine/Analyzer.lean ====
section
/-! DEFINITION. Machine/Analyzer.lean: the external transform (R130), the history ring and the noise floor (R131 to R133 of
42_spectrum_analyzer.md), the slot decision (R173 of 44_receive.md), and `RXSPEC` (R134). -/

namespace Sys2Proof.Machine

open Sys2Proof.Config

/-- `SPECTRUM(x)` for a frame of `n` sample words: `NBINS` magnitudes (R130). `SPEC_ID` is the test transform of
95_test_vectors.md section 0. -/
def spectrum (b : SpectrumBinding) (n : Nat) (x : List Word) : List Mag :=
  (List.range (n / 2 + 1)).map fun k =>
    match b with
    | .external => spectrumBin n x k
    | .specId => x.getD k 0

/-- `histSum` after the eviction of the slot `old` (R131). -/
def evict (sum : List (BitVec 34)) (old : List Mag) : List (BitVec 34) :=
  List.zipWith (fun h o => h - o.setWidth 34) sum old

/-- `histSum` after the spectrum `m` has been added (R131). -/
def addSpectrum (sum : List (BitVec 34)) (m : List Mag) : List (BitVec 34) :=
  List.zipWith (fun h v => h + v.setWidth 34) sum m

/-- `ANALYZE` after `m = SPECTRUM(x)`: the ring update of R131 and the publication of R132. -/
def analyze (m : List Mag) (rx : RxState) : RxState :=
  let full := rx.histCount.toNat = maxSpectrumHistory
  { rx with
    histSum := addSpectrum (if full then evict rx.histSum (rx.histBuf.getD rx.histHead.toNat []) else rx.histSum) m
    histCount := if full then rx.histCount else rx.histCount + 1
    histBuf := rx.histBuf.set rx.histHead.toNat m
    histHead := rx.histHead + 1
    spec := m
    specNew := true }

/-- `nfNum(k)` (R133), after `ANALYZE` of the current frame. -/
def nfNum (rx : RxState) (k : Nat) : Nat :=
  max (rx.histSum.getD (k + 1) 0).toNat (squelch * rx.histCount.toNat)

/-- The slot decision `ON(p, s, m)` of R173. -/
def slotOn (rx : RxState) (p : ProtoId) (s : Nat) (m : List Mag) : Bool :=
  decide (marginNum * nfNum rx (binOn p s) < (m.getD (binOn p s) 0).toNat * rx.histCount.toNat * marginDen)

/-- `RXSPEC` (R134): hands over `rxSpec` when it is new. -/
def execRxspec (s : State) : Result :=
  whenConfigured s
    (if s.rx.specNew then
      answer (pushHdo { s with rx := { s.rx with specNew := false } } (s.rx.spec.flatMap le32)) 1
    else answer s 0)

end Sys2Proof.Machine
end

