-- ==== Sys2Proof/Machine/Receive.lean ====
section
/-! DEFINITION. Machine/Receive.lean: the receive engine (44_receive.md): `RXRECV` (R170), the frame-state machine (R171 to
R187). -/

namespace Sys2Proof.Machine

open Sys2Proof.Config

/-- `MATCH(p, m)` (R174). -/
def markerMatch (rx : RxState) (p : ProtoId) (m : List Mag) : Bool :=
  (List.range nBitsInMarker).all fun s => slotOn rx p s m == markerOn p s

/-- `DETECT(m)` (R175): the least catalog index that passes `PROTO_OK` and matches. -/
def detect (cfg : CfgState) (rx : RxState) (m : List Mag) : Option ProtoId :=
  (List.finRange 6).find? fun p => protoOk cfg p && markerMatch rx p m

/-- The provisional duration of a reception, that of the longest payload (R179). -/
def longestRecording (p : ProtoId) : Nat :=
  encDataOffset + nGroups maxLength (bytesPerGroup p) * framesPerGroup p

/-- Analyzing to Receiving (R179). -/
def startReceiving (rx : RxState) (p : ProtoId) : RxState :=
  { rx with
    curProto := p
    analyzing := false
    receiving := true
    framesToRecord := BitVec.ofNat 11 (longestRecording p)
    framesLeftToRecord := BitVec.ofNat 11 (longestRecording p)
    enc := List.replicate rxEncCap 0
    accOn := List.replicate maxDataBits 0
    accNf := List.replicate maxDataBits 0
    recorded := []
    cand := none }

/-- `framesLeftToAnalyze` after a frame that detected `d` (R177, R178). -/
def countDetection (rx : RxState) (d : ProtoId) : BitVec 11 :=
  if rx.cand = some d then rx.framesLeftToAnalyze - 1 else rx.framesToAnalyze - 1

/-- `ANALYZING_STEP(m)` (R176 to R179). -/
def analyzingStep (cfg : CfgState) (m : List Mag) (rx : RxState) : RxState :=
  match detect cfg rx m with
  | none => { rx with cand := none, framesLeftToAnalyze := rx.framesToAnalyze }
  | some d =>
    let rx1 := { rx with cand := some d, framesLeftToAnalyze := countDetection rx d }
    if rx1.framesLeftToAnalyze = 0 then startReceiving rx1 d else rx1

/-- The recorded frame index `r` of the next frame (R180). -/
def recordedIndex (rx : RxState) : Nat := rx.framesToRecord.toNat - rx.framesLeftToRecord.toNat

/-- Whether `ACCUMULATE` uses frame `j` of a group of `f` frames (R181). -/
def accumulates (f j : Nat) : Bool := decide (f ≤ 2) || (decide (1 ≤ j) && decide (j + 2 ≤ f))

/-- `ACCUMULATE(m, j)` (R181). -/
def accumulate (rx : RxState) (p : ProtoId) (m : List Mag) (j : Nat) : RxState :=
  if accumulates (framesPerGroup p) j then
    { rx with
      accOn := rx.accOn.mapIdx fun b a =>
        if b < slots p then a + BitVec.ofNat 64 ((m.getD (binOn p b) 0).toNat * rx.histCount.toNat) else a
      accNf := rx.accNf.mapIdx fun b a =>
        if b < slots p then a + BitVec.ofNat 64 (nfNum rx (binOn p b)) else a }
  else rx

/-- The group decision for slot `b` (R182). -/
def groupDecision (rx : RxState) (b : Nat) : Bool :=
  decide (marginNum * (rx.accNf.getD b 0).toNat < (rx.accOn.getD b 0).toNat * marginDen)

/-- `DECIDE_GROUP(g)` (R182). -/
def decideGroup (rx : RxState) (p : ProtoId) (g : Nat) : RxState :=
  { rx with
    enc := overwrite rx.enc (g * bytesPerGroup p) ((List.range (bytesPerGroup p)).map (byteOfBits (groupDecision rx)))
    accOn := List.replicate maxDataBits 0
    accNf := List.replicate maxDataBits 0 }

/-- Header refinement at recorded frame `r` (R183). -/
def refineHeader (c : EccCode) (rx : RxState) (p : ProtoId) (r : Nat) : RxState :=
  match hdrCheck c rx.enc (bytesPerGroup p) with
  | none => { rx with framesToRecord := BitVec.ofNat 11 (r + 1), framesLeftToRecord := 0 }
  | some h =>
    let total := encDataOffset + nGroups h (bytesPerGroup p) * framesPerGroup p
    { rx with framesToRecord := BitVec.ofNat 11 total, framesLeftToRecord := BitVec.ofNat 11 (total - (r + 1)) }

/-- `SURFACE(pl, len, c)` (R185). -/
def surface (rx : RxState) (d : Decoded) : RxState :=
  { rx with
    data := overwrite rx.data 0 d.pl
    dataLength := BitVec.ofNat 9 d.len
    protocolId := rx.curProto
    rxNew := true
    corrected := d.corrected }

/-- `RETURN_TO_ANALYZING()` (R186). -/
def returnToAnalyzing (rx : RxState) : RxState :=
  { rx with
    analyzing := true
    receiving := false
    framesLeftToAnalyze := rx.framesToAnalyze
    cand := none
    framesToRecord := 0
    framesLeftToRecord := 0 }

/-- `DECODING()` (R184); on failure nothing is surfaced (R187). -/
def decoding (c : EccCode) (rx : RxState) : RxState :=
  match fecDecode c rx.enc (bytesPerGroup rx.curProto) with
  | some d => returnToAnalyzing (surface rx d)
  | none => returnToAnalyzing rx

/-- The part of R180 for a recorded frame `r` at or after `ENC_DATA_OFFSET`: group `g`, frame `j` of the group. -/
def groupStep (c : EccCode) (m : List Mag) (r : Nat) (rx : RxState) : RxState :=
  let p := rx.curProto
  let q := r - encDataOffset
  let g := q / framesPerGroup p
  let j := q % framesPerGroup p
  let rx1 := accumulate rx p m j
  if j = framesPerGroup p - 1 then
    let rx2 := decideGroup rx1 p g
    if g = headerGroup (bytesPerGroup p) then refineHeader c rx2 p r else rx2
  else rx1

/-- The bookkeeping every recorded frame gets (R180): the frame is appended to `rxRec` and counted. -/
def recordFrame (x : List Word) (rx : RxState) : RxState :=
  { rx with recorded := rx.recorded ++ [x], framesLeftToRecord := rx.framesLeftToRecord - 1 }

/-- `RECEIVING_STEP(m, x)` (R180). -/
def receivingStep (c : EccCode) (m : List Mag) (x : List Word) (rx : RxState) : RxState :=
  let r := recordedIndex rx
  let rx1 := recordFrame x rx
  let rx2 := if encDataOffset ≤ r then groupStep c m r rx1 else rx1
  if rx2.framesLeftToRecord = 0 then decoding c rx2 else rx2

/-- `PROCESS_FRAME` after `m = SPECTRUM(x)` (R171): the ring first, then the step of the present state. -/
def processSpectrum (cfg : CfgState) (c : EccCode) (m : List Mag) (x : List Word) (rx : RxState) : RxState :=
  let rx1 := analyze m rx
  if rx1.analyzing then analyzingStep cfg m rx1 else receivingStep c m x rx1

/-- `PROCESS_FRAME(x)` (R171). -/
def processFrame (cfg : CfgState) (prims : Primitives) (x : List Word) (rx : RxState) : RxState :=
  processSpectrum cfg (eccCode prims.ecc) (spectrum prims.spectrum cfg.spf.toNat x) x rx

/-- `FB` (R16). -/
def frameSize (cfg : CfgState) : Nat := cfg.spf.toNat * cfg.ssIn.toNat

/-- The bytes `b` of one pull appended to the frame in progress, and the frame processed when it is complete (R170). -/
def receiveBytes (cfg : CfgState) (prims : Primitives) (b : List Byte) (rx : RxState) : RxState :=
  let rx1 :=
    { rx with
      frameBytes := overwrite rx.frameBytes rx.frameFill.toNat b
      frameFill := rx.frameFill + BitVec.ofNat 13 b.length }
  if rx1.frameFill.toNat = frameSize cfg then
    processFrame cfg prims (frameWords cfg.ssIn.toNat cfg.spf.toNat rx1.frameBytes) { rx1 with frameFill := 0 }
  else rx1

/-- `RXRECV` (R170): one pull of the bytes still missing from the frame, at most one frame processed, always `OK 0`. -/
def execRxrecv (s : State) : Result :=
  let pulled := pullBytes s.io.ain (frameSize s.cfg - s.rx.frameFill.toNat)
  whenConfigured s
    (answer
      { s with rx := receiveBytes s.cfg s.prims pulled.1 s.rx, io := { s.io with ain := pulled.2 } } 0)

end Sys2Proof.Machine
end

