-- ==== Sys2Proof/Machine/System.lean ====
section
/-! DEFINITION. Machine/System.lean: the register map and `RDREG` (R220, R221 of 46_system.md). -/

namespace Sys2Proof.Machine

/-- `REG(idx)`, zero-extended to 32 bits (R220); `none` for the reserved indices (R61). -/
def regValue (s : State) (idx : Nat) : Option Word :=
  match idx with
  | 0 => some s.cfg.srIn
  | 1 => some s.cfg.srOut
  | 2 => some (s.cfg.spf.setWidth 32)
  | 3 => some (s.cfg.ssIn.setWidth 32)
  | 4 => some (s.cfg.ssOut.setWidth 32)
  | 5 => some s.cfg.hzPerBin
  | 6 => some (s.cfg.freqDeltaBin.setWidth 32)
  | 7 => some s.cfg.freqDeltaHz
  | 8 => some (s.cfg.nBitsInMarker.setWidth 32)
  | 9 => some (s.cfg.nMarkerFrames.setWidth 32)
  | 10 => some (s.cfg.nPostMarkerFrames.setWidth 32)
  | 11 => some (s.cfg.encDataOffset.setWidth 32)
  | 12 => some (s.cfg.txSpf.setWidth 32)
  | 13 => some (s.cfg.nBins.setWidth 32)
  | 14 => some (statusWord s)
  | _ => none

/-- `RDREG` (R220); an index above 14 is `ILLEGAL`. -/
def execRdreg (idx : BitVec 8) (s : State) : Result :=
  match regValue s idx.toNat with
  | some v => whenConfigured s (answer s v)
  | none => refuseIllegal s

end Sys2Proof.Machine
end

