-- ==== Sys2Proof/Machine/Sine.lean ====
section
/-! DEFINITION. Machine/Sine.lean: the numerics primitive `SINE(p, q)` of R150 (43_transmit.md), computed exactly in integer
arithmetic (log 11).

With `M = 65534 = 2 * 32767` and `m = 2n + 1`, the half-integer threshold `n + 1/2` stands for the sine value `m / M`. Let
`t` be the angle in the first quadrant with `sin t = m / M`. The complex number `(M^2 - 2m^2) + 2m sqrt(M^2 - m^2) i` has the
angle `2t`, so counting the whole turns of its `q`-th power compares `2tq` with whole turns, exactly: every real and every
imaginary part is an integer, the imaginary one times the positive root `sqrt(M^2 - m^2)`. -/

namespace Sys2Proof.Machine

/-- `2 * 32767` (R150): the denominator of a half-integer threshold. -/
def sineDen : Int := 65534

/-- A power of the threshold's complex number: real part `x`, imaginary part `y * sqrt(M^2 - m^2)`, and the whole turns
its angle has passed. -/
structure Turn where
  x     : Int
  y     : Int
  turns : Nat
deriving DecidableEq, Repr

/-- The angle left after the whole turns lies in `[0, half a turn)`. -/
def Turn.upper (t : Turn) : Bool := decide (0 < t.y) || (decide (t.y = 0) && decide (0 < t.x))

/-- Twice the angle. -/
def Turn.double (m : Int) (t : Turn) : Turn :=
  { x := t.x * t.x - (sineDen * sineDen - m * m) * (t.y * t.y)
    y := 2 * t.x * t.y
    turns := 2 * t.turns + (if t.upper then 0 else 1) }

/-- The angle plus `2t`, which is at most half a turn. -/
def Turn.addBase (m : Int) (t : Turn) : Turn :=
  let u : Turn :=
    { x := t.x * (sineDen * sineDen - 2 * (m * m)) - (sineDen * sineDen - m * m) * (t.y * (2 * m))
      y := t.x * (2 * m) + t.y * (sineDen * sineDen - 2 * (m * m))
      turns := t.turns }
  { u with turns := t.turns + (if !t.upper && u.upper then 1 else 0) }

/-- `q` times the angle `2t`, by the bits of `q` from the most significant down (`fuel` of them). -/
def turnOf (m : Int) : (fuel : Nat) → (q : Nat) → Turn
  | 0, _ => { x := 1, y := 0, turns := 0 }
  | fuel + 1, q =>
    let d := (turnOf m fuel (q / 2)).double m
    if q % 2 = 1 then d.addBase m else d

/-- `q` times the angle `2t`. -/
def turnPow (m : Int) (q : Nat) : Turn := turnOf m (Nat.log2 q + 1) q

/-- `32767 * sin(pi * a / q) <= n + 1/2`, for `2a <= q`. -/
def sineAtMost (a q n : Nat) : Bool := decide (a ≤ (turnPow (2 * n + 1) q).turns)

/-- `32767 * sin(pi * a / q) = n + 1/2`, for `2a <= q`. -/
def sineTie (a q n : Nat) : Bool :=
  let t := turnPow (2 * n + 1) q
  decide (t.turns = a) && decide (t.y = 0) && decide (0 < t.x)

/-- The least `n` in `lo .. hi` with `sineAtMost a q n` (taken to hold at `hi`), by halving. -/
def sineSearch (a q : Nat) : (fuel : Nat) → (lo hi : Nat) → Nat
  | 0, lo, _ => lo
  | fuel + 1, lo, hi =>
    if hi ≤ lo then lo
    else
      let mid := (lo + hi) / 2
      if sineAtMost a q mid then sineSearch a q fuel lo mid else sineSearch a q fuel (mid + 1) hi

/-- The integer nearest to `32767 * sin(pi * a / q)` for `2a <= q`, a tie going to the even one. -/
def sineFirstQuadrant (a q : Nat) : Nat :=
  let n := sineSearch a q 15 0 32767
  if n < 32767 && sineTie a q n then n + n % 2 else n

/-- `sin(2 pi p / q)` on the first half turn, `2p <= q`: the angle or its supplement, as `pi a / q`. -/
def sineHalf (p q : Nat) : Nat := sineFirstQuadrant (min (2 * p) (q - 2 * p)) q

/-- `SINE(p, q)` (R150), for `0 <= p < q`. -/
def sine (p q : Nat) : Int := if 2 * p ≤ q then (sineHalf p q : Int) else -(sineHalf (q - p) q : Int)

/-- `SINE(0, q) .. SINE(q-1, q)`, each computed once. -/
def sineTable (q : Nat) : Array Int := ((List.range q).map fun p => sine p q).toArray

end Sys2Proof.Machine
end

