-- ==== Sys2Proof/Machine/Transmit.lean ====
section
/-! DEFINITION. Machine/Transmit.lean: the tone synthesizer (43_transmit.md): `TXINIT` (R140 to R144), the waveform (R148 to
R153), `TXSEND` (R145 to R147, R154), `TXHAS` (R155), `TXTAKE16` (R156). -/

namespace Sys2Proof.Machine

open Sys2Proof.Config

/-- The catalog index of a `TXINIT` whose operands pass `INIT_VALID` (R141); `none` where one of its four conditions
fails. -/
def initValid (cfg : CfgState) (length proto volume : Nat) : Option ProtoId :=
  match protoOf proto with
  | none => none
  | some p => if lengthOk length && protoOk cfg p && decide (volume ≤ volMax) then some p else none

/-- The commit of a successful `TXINIT` with the encoded stream `enc` (R144). -/
def commitInit (tx : TxState) (p : ProtoId) (volume length : Nat) (pl enc : List Byte) : TxState :=
  { tx with
    protocolId := p
    len := BitVec.ofNat 8 length
    volume := BitVec.ofNat 7 volume
    payload := overwrite tx.payload 0 pl
    enc := overwrite tx.enc 0 enc
    encLen := BitVec.ofNat 10 enc.length
    groups := BitVec.ofNat 10 (ceilDiv enc.length (bytesPerGroup p))
    unit := 0
    outCount := 0
    amp16Count := 0
    hasData := true }

/-- `TXINIT` (R140): pops the payload, then commits (R143, R144) or answers 0 with nothing changed (R142). -/
def execTxinit (proto : BitVec 4) (volume : BitVec 8) (length : BitVec 12) (s : State) : Result :=
  whenConfigured s
    (match popBytes s.io.hdi length.toNat with
    | none => .fault .hdiStarved
    | some (pl, rest) =>
      let s1 : State := { s with io := { s.io with hdi := rest } }
      match initValid s.cfg length.toNat proto.toNat volume.toNat with
      | none => answer s1 0
      | some p =>
        match fecEncode (eccCode s.prims.ecc) pl length.toNat (bytesPerGroup p) with
        | none => answer s1 0
        | some enc => answer { s1 with tx := commitInit s.tx p volume.toNat length.toNat pl enc } 1)

/-- `W[i]` of R151 from a table of `SINE(., l)`: the sum of the tones on the bins `bins` at sample `i`. -/
def toneSum (table : Array Int) (l : Nat) (bins : List Nat) (i : Nat) : Int :=
  (bins.map fun k => table.getD ((k * i) % l) 0).sum

/-- Sample `v[i]` of R151. -/
def toneSample (p : ProtoId) (vol : Nat) (w : Int) : I16 :=
  BitVec.ofInt 16 (tdiv ((vol : Int) * w) ((100 * ampSlots p : Nat) : Int))

/-- `FRAME(p, B, vol)` (R151) for `l` samples. -/
def frame (l : Nat) (p : ProtoId) (onSet : List Nat) (vol : Nat) : List I16 :=
  let table := sineTable l
  let bins := onSet.map (binOn p)
  (List.range l).map fun i => toneSample p vol (toneSum table l bins i)

/-- `n` copies, one after another. -/
def copies {α : Type} (n : Nat) (l : List α) : List α := (List.replicate n l).flatten

/-- The on-set `M_p` of the marker (R153). -/
def markerSet (p : ProtoId) : List Nat := (List.range nBitsInMarker).filter (markerOn p)

/-- `PREAMBLE(p, vol)` (R153). -/
def preamble (l : Nat) (p : ProtoId) (vol : Nat) : List I16 :=
  copies nMarkerFrames (frame l p (markerSet p) vol) ++ List.replicate (nPostMarkerFrames * l) 0

/-- The on-set `B_g` of data group `g` (R148). -/
def groupSet (tx : TxState) (p : ProtoId) (g : Nat) : List Nat :=
  (List.range (slots p)).filter (groupBit tx.enc tx.encLen.toNat (bytesPerGroup p) g)

/-- `GROUP(p, g, vol)` (R148). -/
def dataGroup (l : Nat) (tx : TxState) (p : ProtoId) (g vol : Nat) : List I16 :=
  copies (framesPerGroup p) (frame l p (groupSet tx p g) vol)

/-- The samples of emission unit `txUnit` (R145, R146). -/
def unitSamples (l : Nat) (tx : TxState) : List I16 :=
  if tx.unit = 0 then preamble l tx.protocolId tx.volume.toNat
  else dataGroup l tx tx.protocolId (tx.unit.toNat - 1) tx.volume.toNat

/-- Transmit state after the unit `smp` has been emitted (R145, R147). -/
def advanceUnit (tx : TxState) (smp : List I16) : TxState :=
  { tx with
    out := overwrite tx.out 0 smp
    outCount := BitVec.ofNat 17 smp.length
    amp16Count := BitVec.ofNat 17 smp.length
    unit := tx.unit + 1
    hasData := if tx.unit.toNat + 1 = 1 + tx.groups.toNat then false else tx.hasData }

/-- `TXSEND` (R145). -/
def execTxsend (s : State) : Result :=
  whenConfigured s
    (if s.tx.hasData then
      let smp := unitSamples s.cfg.txSpf.toNat s.tx
      answer (pushAout { s with tx := advanceUnit s.tx smp } (outputBytes s.cfg.ssOut.toNat smp))
        (BitVec.ofNat 32 (smp.length * s.cfg.ssOut.toNat))
    else answer s 0)

/-- `TXHAS` (R155). -/
def execTxhas (s : State) : Result := whenConfigured s (answer s (flagWord s.tx.hasData))

/-- `TXTAKE16` (R156). -/
def execTxtake16 (s : State) : Result :=
  whenConfigured s
    (answer
      (pushHdo { s with tx := { s.tx with amp16Count := 0 } } ((s.tx.out.take s.tx.amp16Count.toNat).flatMap le16))
      (s.tx.amp16Count.setWidth 32))

end Sys2Proof.Machine
end

