-- ==== Sys2Proof/Machine/Dispatch.lean ====
section
/-! DEFINITION. Machine/Dispatch.lean: one arm per command, each one call of its meaning. -/

namespace Sys2Proof.Machine

def exec (i : Instr) (s : State) : Host.Outcome State Fault Refusal :=
  match i with
  | .rdreg idx => Sys2Proof.Machine.execRdreg idx s
  | .catlen => Sys2Proof.Machine.execCatlen s
  | .catdef => Sys2Proof.Machine.execCatdef s
  | .catget idx => Sys2Proof.Machine.execCatget idx s
  | .catname idx sub => Sys2Proof.Machine.execCatname idx sub s
  | .txinit proto volume length => Sys2Proof.Machine.execTxinit proto volume length s
  | .txsend => Sys2Proof.Machine.execTxsend s
  | .txhas => Sys2Proof.Machine.execTxhas s
  | .txtake16 => Sys2Proof.Machine.execTxtake16 s
  | .rxrecv => Sys2Proof.Machine.execRxrecv s
  | .rxisrecv => Sys2Proof.Machine.execRxisrecv s
  | .rxisana => Sys2Proof.Machine.execRxisana s
  | .rxftr => Sys2Proof.Machine.execRxftr s
  | .rxfltr => Sys2Proof.Machine.execRxfltr s
  | .rxfta => Sys2Proof.Machine.execRxfta s
  | .rxflta => Sys2Proof.Machine.execRxflta s
  | .rxtake => Sys2Proof.Machine.execRxtake s
  | .rxproto => Sys2Proof.Machine.execRxproto s
  | .rxprotoid => Sys2Proof.Machine.execRxprotoid s
  | .rxspec => Sys2Proof.Machine.execRxspec s

end Sys2Proof.Machine
end

