-- ==== Sys2Proof/Machine/Fetch.lean ====
section
/-! DEFINITION. Machine/Fetch.lean: taking the next command word from `CMD`, and placing one there. -/

namespace Sys2Proof.Machine

/-- The oldest word of `CMD`, removed from it (R63, R70). -/
def takeCommand (s : State) : Option (Word × State) :=
  match s.io.cmd with
  | [] => none
  | w :: rest => some (w, { s with io := { s.io with cmd := rest } })

/-- The zero bytes of the data phase a command word announces (R84). -/
def zeroDataPhase (w : Word) : List Byte :=
  match decode w with
  | .ok i => List.replicate i.dataPhase 0
  | .error _ => []

/-- The command word with the bits `w` in front of `CMD`, its data phase in front of `HDI`, reset not asserted (log 5). -/
def placeCommand (s : State) (nbits w : Nat) : State :=
  let word : Word := BitVec.ofNat 32 (w % 2 ^ nbits)
  { s with
    resetIn := none
    io := { s.io with cmd := word :: s.io.cmd, hdi := zeroDataPhase word ++ s.io.hdi } }

end Sys2Proof.Machine
end

