-- ==== Sys2Proof/Machine/Step.lean ====
section
/-! DEFINITION. Machine/Step.lean: one step of the engine: reset when its input is asserted (R250, R253), else the next
command word of `CMD` (R70, R91, R238). -/

namespace Sys2Proof.Machine

/-- One step. `CFGFAULT` comes before decoding in effect: every meaning and the refusal of an illegal word answer it first
(R238). -/
def step (s : State) : Host.Outcome State Fault Refusal :=
  match s.resetIn with
  | some p => .next (State.afterReset s.prims p)
  | none =>
    match takeCommand s with
    | none => .fault .noCommand
    | some (w, s1) =>
      match decode w with
      | .ok i => exec i s1
      | .error _ => refuseIllegal s1

/-- `s` with the command word `w` as the next one on `CMD` and, as its data phase, zero bytes on `HDI` (R84; log 5). -/
def State.withFetchWord (s : State) (nbits w : Nat) : State := placeCommand s nbits w

end Sys2Proof.Machine
end

