-- ==== Sys2Proof/Safety.lean ====
section
/-! DEFINITION. Sys2Proof/Safety.lean: what claims about runs are stated with: the responses of R85 and R86 as whole states,
the invariants of R28, R32, R43, R45, and the properties of the external functions that R135 and R136 of
42_spectrum_analyzer.md name. -/

namespace Sys2Proof.Machine

open Sys2Proof.Config

/-- `s` after the response `OK`, `v` and nothing else. -/
def State.answered (s : State) (v : Word) : State :=
  { s with io := { s.io with rsp := s.io.rsp ++ [0x00000000#32, v] } }

/-- `s` after the response `ILLEGAL`, 0 and nothing else. -/
def State.refusedIllegal (s : State) : State :=
  { s with io := { s.io with rsp := s.io.rsp ++ [0x00000001#32, 0x00000000#32] } }

/-- `s` after the response `CFGFAULT`, 0 and nothing else. -/
def State.answeredCfgFault (s : State) : State :=
  { s with io := { s.io with rsp := s.io.rsp ++ [0x00000002#32, 0x00000000#32] } }

/-- The illegal command words of R89, by the bits of the word as a number: (a) unknown opcode, (b) Format N with a bit set
below the opcode, (c) Format I with a bit of `[23:16]` set, (d) the operand constraints of the opcode map. -/
def IllegalWord (w : Word) : Prop :=
  (w.toNat / 2 ^ 24 ∉ [0x01, 0x10, 0x11, 0x12, 0x13, 0x20, 0x21, 0x22, 0x23, 0x30, 0x31, 0x32, 0x33, 0x34, 0x35, 0x36,
    0x37, 0x38, 0x39, 0x3A]) ∨
  (w.toNat / 2 ^ 24 ∉ [0x01, 0x12, 0x13, 0x20] ∧ w.toNat % 2 ^ 24 ≠ 0) ∨
  (w.toNat / 2 ^ 24 ∈ [0x01, 0x12, 0x13] ∧ w.toNat / 2 ^ 16 % 256 ≠ 0) ∨
  (w.toNat / 2 ^ 24 = 0x01 ∧ (w.toNat / 2 ^ 8 % 256 ≠ 0 ∨ 14 < w.toNat % 256)) ∨
  (w.toNat / 2 ^ 24 = 0x12 ∧ (w.toNat / 2 ^ 8 % 256 ≠ 0 ∨ 5 < w.toNat % 256)) ∨
  (w.toNat / 2 ^ 24 = 0x13 ∧ (3 < w.toNat / 2 ^ 8 % 256 ∨ 5 < w.toNat % 256))

/-- The straps a state holds latched (R21). -/
def CfgState.straps (c : CfgState) : Straps :=
  { srIn := c.srIn, srOut := c.srOut, spf := c.spf, ssIn := c.ssIn, ssOut := c.ssOut }

/-- Configuration invariant: every configuration and derived register, and `cfgFault`, is what reset wrote from the latched
straps (R21, R22, R41). -/
def CfgInv (c : CfgState) : Prop := c = CfgState.afterReset c.straps

/-- Transmit invariant (R26 to R30, R43 (b) and (f)). -/
structure TxInv (cfg : CfgState) (tx : TxState) : Prop where
  payload_length : tx.payload.length = maxDataSize
  enc_length : tx.enc.length = rxEncCap
  out_length : tx.out.length = txOutCap
  len_le : tx.len.toNat ≤ maxLength
  volume_le : tx.volume.toNat ≤ volMax
  outCount_le : tx.outCount.toNat ≤ txOutCap
  taken_or_whole : tx.amp16Count = 0 ∨ tx.amp16Count = tx.outCount
  sending : tx.hasData = true →
    tx.unit.toNat ≤ tx.groups.toNat ∧ minLength ≤ tx.len.toNat ∧ protoOk cfg tx.protocolId = true ∧
    tx.encLen.toNat = encLen tx.len.toNat (bytesPerGroup tx.protocolId) ∧
    tx.groups.toNat = nGroups tx.len.toNat (bytesPerGroup tx.protocolId)
  idle : tx.hasData = false →
    (tx.len = 0 ∧ tx.unit = 0 ∧ tx.groups = 0) ∨ tx.unit.toNat = 1 + tx.groups.toNat

/-- The sum of bin `k` over the valid slots of the ring (R34): slots `0 .. histCount-1`. -/
def ringSum (rx : RxState) (k : Nat) : Nat :=
  ((List.range rx.histCount.toNat).map fun i => ((rx.histBuf.getD i []).getD k 0).toNat).sum

/-- How many frames of the group in progress have been recorded (R180). -/
def framesIntoGroup (rx : RxState) : Nat :=
  (recordedIndex rx - encDataOffset) % framesPerGroup rx.curProto

/-- Receive invariant (R31 to R38, R43 (a), (c), (d), (e), (g), (h), R45, R188). -/
structure RxInv (cfg : CfgState) (rx : RxState) : Prop where
  exclusive : rx.receiving = !rx.analyzing
  framesToAnalyze_eq : rx.framesToAnalyze.toNat = framesToAnalyze
  analyzing_counters : rx.analyzing = true →
    1 ≤ rx.framesLeftToAnalyze.toNat ∧ rx.framesLeftToAnalyze.toNat ≤ framesToAnalyze ∧
    rx.framesToRecord = 0 ∧ rx.framesLeftToRecord = 0 ∧
    (rx.cand = none ↔ rx.framesLeftToAnalyze = rx.framesToAnalyze)
  receiving_counters : rx.receiving = true →
    rx.framesLeftToAnalyze = 0 ∧ rx.cand = none ∧ protoOk cfg rx.curProto = true ∧
    1 ≤ rx.framesLeftToRecord.toNat ∧ rx.framesLeftToRecord.toNat ≤ rx.framesToRecord.toNat ∧
    rx.framesToRecord.toNat ≤ longestRecording rx.curProto ∧
    rx.recorded.length = recordedIndex rx
  /-- until the header group is decided the duration is the provisional one (R179, R183) -/
  provisional : rx.receiving = true →
    recordedIndex rx < encDataOffset + (headerGroup (bytesPerGroup rx.curProto) + 1) * framesPerGroup rx.curProto →
    rx.framesToRecord.toNat = longestRecording rx.curProto
  recorded_le : rx.recorded.length ≤ maxRecordedFrames
  spec_length : rx.spec.length = cfg.nBins.toNat
  histBuf_length : rx.histBuf.length = maxSpectrumHistory
  slot_length : ∀ l ∈ rx.histBuf, l.length = cfg.nBins.toNat
  histSum_length : rx.histSum.length = cfg.nBins.toNat
  histCount_le : rx.histCount.toNat ≤ maxSpectrumHistory
  filling : rx.histCount.toNat < maxSpectrumHistory → rx.histHead.toNat = rx.histCount.toNat
  histSum_eq : ∀ k, k < cfg.nBins.toNat → (rx.histSum.getD k 0).toNat = ringSum rx k
  frameBytes_length : rx.frameBytes.length = frameSize cfg
  frameFill_lt : rx.frameFill.toNat < frameSize cfg
  accOn_length : rx.accOn.length = maxDataBits
  accNf_length : rx.accNf.length = maxDataBits
  acc_bound : rx.receiving = true → ∀ b,
    (rx.accOn.getD b 0).toNat ≤ framesIntoGroup rx * 2 ^ 34 ∧ (rx.accNf.getD b 0).toNat ≤ framesIntoGroup rx * 2 ^ 34
  enc_length : rx.enc.length = rxEncCap
  data_length : rx.data.length = maxDataSize
  new_payload : rx.rxNew = true → minLength ≤ rx.dataLength.toNat ∧ rx.dataLength.toNat ≤ maxLength
  no_payload : rx.rxNew = false → rx.dataLength = 0

/-- The invariant of R43: it holds between any two commands; what it says of the transmit and the receive state is said
when `cfgFault = 0`. -/
structure State.Inv (s : State) : Prop where
  cfg : CfgInv s.cfg
  tx : s.cfg.cfgFault = false → TxInv s.cfg s.tx
  rx : s.cfg.cfgFault = false → RxInv s.cfg s.rx

/-- `n` commands `i` one after another, none waiting. -/
def execTimes (i : Instr) : Nat → State → Option State
  | 0, s => some s
  | n + 1, s =>
    match exec i s with
    | .next t => execTimes i n t
    | .fault _ => none
    | .refused _ => none

/-- Frames processed one after another (R171), each given as its spectrum and its sample words. -/
def processSpectra (cfg : CfgState) (c : EccCode) : List (List Mag × List Word) → RxState → RxState
  | [], rx => rx
  | (m, x) :: later, rx => processSpectra cfg c later (processSpectrum cfg c m x rx)

/-- The exponent field of a binary32 word (R152's layout). -/
def f32Exponent (w : Word) : Nat := (w.extractLsb' 23 8).toNat

/-- The fraction field of a binary32 word. -/
def f32Fraction (w : Word) : Nat := (w.extractLsb' 0 23).toNat

/-- A binary32 word that is neither an infinity nor a NaN (R67, R135). -/
def f32Finite (w : Word) : Bool := decide (f32Exponent w ≠ 255)

/-- The real value of a finite binary32 word (R14, R152): zero and the subnormals have exponent field 0 and no hidden 1. -/
def f32Value (w : Word) : ℚ :=
  (if w.getLsbD 31 then -1 else 1) *
    (if f32Exponent w = 0 then (f32Fraction w : ℚ) / 2 ^ 23 * 2 ^ (-126 : ℤ)
    else (1 + (f32Fraction w : ℚ) / 2 ^ 23) * 2 ^ ((f32Exponent w : ℤ) - 127))

/-- `X[k]` of R135: the discrete Fourier transform of the frame `x` of `n` sample words. -/
noncomputable def dftBin (n : Nat) (x : List Word) (k : Nat) : ℂ :=
  ∑ t ∈ Finset.range n, ((f32Value (x.getD t 0) : ℚ) : ℂ) * Complex.exp (-2 * Real.pi * Complex.I * k * t / n)

/-- `DFTMAG` (R135, informative): `m` is the reference transform of the frame `x` of `n` sample words. Bin `k` is the modulus
of `X[k]` in UQ16.16, capped; a frame that holds a non-finite sample has the all-zero spectrum. -/
def IsDftMag (n : Nat) (x : List Word) (m : List Mag) : Prop :=
  m.length = n / 2 + 1 ∧
  ((∃ t, t < n ∧ f32Finite (x.getD t 0) = false) → ∀ k, k < n / 2 + 1 → m.getD k 0 = 0) ∧
  ((∀ t, t < n → f32Finite (x.getD t 0) = true) → ∀ k, k < n / 2 + 1 →
    (m.getD k 0).toNat = min (2 ^ 32 - 1) ⌊65536 * ‖dftBin n x k‖⌋₊)

/-- An on-set `TXSEND` can key for protocol `p` (R136): the marker, silence, or any set of data slots. -/
def EmittableSet (p : ProtoId) (onSet : List Nat) : Prop :=
  onSet = markerSet p ∨ (onSet.Nodup ∧ ∀ b ∈ onSet, b < slots p)

/-- What R136 asks of the spectra of the frames of one transmission, `m B` being the spectrum of the frame with on-set `B`.
For clause (c) the rule does not say which history ring the match is judged with; here it is every one. -/
structure ToneSeparation (cfg : CfgState) (m : List Nat → List Mag) (p : ProtoId) : Prop where
  /-- the frame has `NBINS` magnitudes (R130) -/
  length : ∀ x, EmittableSet p x → (m x).length = cfg.nBins.toNat
  /-- (a): a keyed slot exceeds the margin over every slot's off bin in every frame of the transmission -/
  on : ∀ x x' b b', EmittableSet p x → EmittableSet p x' → b ∈ x → b' < ampSlots p →
    marginNum * max ((m x').getD (binOff p b') 0).toNat squelch < ((m x).getD (binOn p b) 0).toNat * marginDen
  /-- (b): a slot that is not keyed stays within the margin over the squelch -/
  off : ∀ x b, EmittableSet p x → b ∉ x → b < ampSlots p →
    ((m x).getD (binOn p b) 0).toNat * marginDen ≤ marginNum * squelch
  /-- (c): a marker frame matches no other usable protocol -/
  other : ∀ p' rx, p' ≠ p → protoOk cfg p' = true → markerMatch rx p' (m (markerSet p)) = false

/-- The tone-response hypothesis `TR(p, vol)` of R136 on a transform `f`: tone separation of the spectra of the frames
`TXSEND` emits, converted by R67. -/
def ToneResponse (cfg : CfgState) (f : List Word → List Mag) (p : ProtoId) (vol : Nat) : Prop :=
  ToneSeparation cfg (fun onSet => f ((frame cfg.txSpf.toNat p onSet vol).map i16ToF32)) p

/-- The on-sets of the frames of a transmission of the encoded stream `enc`, in order (R146, R148, R153): the marker frames,
the silent lead-in frames (none, with the value 0), then each data group's frames. -/
def transmissionSets (p : ProtoId) (enc : List Byte) : List (List Nat) :=
  List.replicate nMarkerFrames (markerSet p) ++ List.replicate nPostMarkerFrames [] ++
    (List.range (ceilDiv enc.length (bytesPerGroup p))).flatMap fun g =>
      List.replicate (framesPerGroup p)
        ((List.range (slots p)).filter (groupBit enc enc.length (bytesPerGroup p) g))

end Sys2Proof.Machine
end

