-- ==== Sys2Proof/Certificates/Slice0/Obligations.lean ====
section
/-! DEFINITION. Certificates/Slice0/Obligations.lean: the statements for the provers. Each docstring names the rule it
formalises. Constants are written out, so that a wrong constant of the model makes a statement false. -/

open Sys2Proof Sys2Proof.Machine

/-! ## Encoding -/

/-- R80 to R84, R91: no bit of an operand is lost, for every command and every operand value its format admits. -/
def Obligations.DecodeOfEncodeIsTheCommand : Prop :=
  ∀ i : Instr, i.wellFormed = true → decode (encode i) = .ok i

/-- R90: a word that decodes is exactly one command with legal operands, and no other word is that command. -/
def Obligations.EncodeOfDecodeIsTheWord : Prop :=
  ∀ (w : Word) (i : Instr), decode w = .ok i → encode i = w ∧ i.wellFormed = true

/-- R89, R90: the decoder is total: a word either is illegal by its bits, or is a command. -/
def Obligations.IllegalWordsAreThoseOfR89 : Prop :=
  ∀ w : Word, ((∃ e, decode w = .error e) ↔ IllegalWord w) ∧ ((∃ i, decode w = .ok i) ↔ ¬ IllegalWord w)

/-- Words written out from the opcode map and the formats (one or more of each format). -/
def Obligations.WrittenWordsDecode : Prop :=
  decode 0b00000001_00000000_00000000_00001110#32 = .ok (.rdreg 14) ∧
  decode 0b00010000_00000000_00000000_00000000#32 = .ok .catlen ∧
  decode 0b00010011_00000000_00000011_00000101#32 = .ok (.catname 5 3) ∧
  decode 0b00100000_0101_01001011_000010001100#32 = .ok (.txinit 5 75 140) ∧
  decode 0b00100011_00000000_00000000_00000000#32 = .ok .txtake16 ∧
  decode 0b00110000_00000000_00000000_00000000#32 = .ok .rxrecv ∧
  decode 0b00111010_00000000_00000000_00000000#32 = .ok .rxspec ∧
  decode 0b00010011_00000000_00000100_00000000#32 = .error .operandConstraint ∧
  decode 0b00100001_10000000_00000000_00000000#32 = .error .reservedBitsN

/-! ## The step -/

/-- R70, R91: with reset not asserted, the oldest word of `CMD` is taken and, when it decodes, its command runs. -/
def Obligations.StepRunsTheDecodedCommand : Prop :=
  ∀ (s : State) (w : Word) (rest : List Word) (i : Instr),
    s.resetIn = none → s.io.cmd = w :: rest → decode w = .ok i →
    step s = exec i { s with io := { s.io with cmd := rest } }

/-- R89, R234: a word that is illegal by its bits is answered `ILLEGAL`, 0, with no state change and no stream but `CMD` and
`RSP` touched; the next word is decoded normally. That the response is a step, no refusal of the machine, is the model's
choice (log 1). -/
def Obligations.IllegalWordIsAnsweredAndSkipped : Prop :=
  ∀ (s : State) (w : Word) (rest : List Word),
    s.resetIn = none → s.cfg.cfgFault = false → s.io.cmd = w :: rest → IllegalWord w →
    step s = .next (State.refusedIllegal { s with io := { s.io with cmd := rest } })

/-- R235, R238: while `cfgFault = 1` every command word, legal or not, gets `CFGFAULT`, 0 and has no other effect. That the
response is a step, no stop of the machine, is the model's choice (log 2). -/
def Obligations.ConfigFaultAnswersEveryWord : Prop :=
  ∀ (s : State) (w : Word) (rest : List Word),
    s.resetIn = none → s.cfg.cfgFault = true → s.io.cmd = w :: rest →
    step s = .next (State.answeredCfgFault { s with io := { s.io with cmd := rest } })

/-- The only steps that do not happen (the two named reasons are the model's, log 3): no command word, or a `TXINIT` whose
data bytes are not there (R64). That nothing is refused, an illegal word being answered by a step, is the model's choice
(log 1), and that `cfgFault` stops nothing is too (log 2). -/
def Obligations.StepWaitsOnlyForAWordOrForBytes : Prop :=
  ∀ s : State,
    (∀ r, step s ≠ .refused r) ∧
    ∀ f, step s = .fault f ↔
      s.resetIn = none ∧
      ((f = .noCommand ∧ s.io.cmd = []) ∨
       (f = .hdiStarved ∧ s.cfg.cfgFault = false ∧
        ∃ w rest proto volume length, s.io.cmd = w :: rest ∧ decode w = .ok (.txinit proto volume length) ∧
          s.io.hdi.length < length.toNat))

/-- R85, R86: a step takes the oldest command word and no other, and gives it exactly one response of two words: status 0,
1 or 2, then the value; status 2 exactly under `cfgFault`, status 1 exactly for an illegal word otherwise, and both with
value 0 and no other effect. -/
def Obligations.EveryCommandAnswersOnce : Prop :=
  ∀ s t : State, s.resetIn = none → step s = .next t →
    ∃ (w : Word) (rest : List Word) (status value : Word),
      s.io.cmd = w :: rest ∧ t.io.cmd = rest ∧ t.io.rsp = s.io.rsp ++ [status, value] ∧ status.toNat ≤ 2 ∧
      (status = 2 ↔ s.cfg.cfgFault = true) ∧ (status = 1 ↔ s.cfg.cfgFault = false ∧ IllegalWord w) ∧
      (status ≠ 0 → value = 0 ∧ t = { s with io := { s.io with cmd := rest, rsp := s.io.rsp ++ [status, 0] } })

/-! ## Reset and configuration -/

/-- R250 and the table of R46: reset with legal straps, every element, from any state. The value of the model's own fields
(`resetIn` released, `prims` kept) is its choice (log 8). -/
def Obligations.ResetWithLegalStraps : Prop :=
  ∀ (s : State) (p : Config.Straps), s.resetIn = some p → legalConfig p = true →
    step s = .next
      { cfg :=
          { srIn := p.srIn, srOut := p.srOut, spf := p.spf, ssIn := p.ssIn, ssOut := p.ssOut
            hzPerBin := BitVec.ofNat 32 (min (2 ^ 32 - 1) (p.srIn.toNat * 65536 / p.spf.toNat))
            freqDeltaBin := 2
            freqDeltaHz := BitVec.ofNat 32 (min (2 ^ 32 - 1) (2 * p.srIn.toNat * 65536 / p.spf.toNat))
            nBitsInMarker := 16
            nMarkerFrames := 16
            nPostMarkerFrames := 0
            encDataOffset := 8
            txSpf := BitVec.ofNat 13 (p.spf.toNat * p.srOut.toNat / p.srIn.toNat)
            nBins := BitVec.ofNat 10 (p.spf.toNat / 2 + 1)
            cfgFault := false }
        tx :=
          { protocolId := 1, len := 0, volume := 0, payload := List.replicate 256 0, enc := List.replicate 600 0
            encLen := 0, groups := 0, unit := 0, hasData := false, out := List.replicate 65536 0, outCount := 0
            amp16Count := 0 }
        rx :=
          { analyzing := true, receiving := false, framesToAnalyze := 8, framesLeftToAnalyze := 8, framesToRecord := 0
            framesLeftToRecord := 0, spec := List.replicate (p.spf.toNat / 2 + 1) 0, specNew := false
            histBuf := List.replicate 4 (List.replicate (p.spf.toNat / 2 + 1) 0), histHead := 0, histCount := 0
            histSum := List.replicate (p.spf.toNat / 2 + 1) 0
            frameBytes := List.replicate (p.spf.toNat * p.ssIn.toNat) 0, frameFill := 0, cand := none, curProto := 1
            accOn := List.replicate 256 0, accNf := List.replicate 256 0, enc := List.replicate 600 0, recorded := []
            data := List.replicate 256 0, dataLength := 0, protocolId := 1, rxNew := false, corrected := false }
        io := { cmd := [], hdi := [], rsp := [], hdo := [], aout := [], ain := [] }
        resetIn := none
        prims := s.prims }

/-- R41, R250, R251: reset latches the straps, empties the streams, and sets `cfgFault` exactly when one of the seven
conditions of R251 fails. That reset is a step, and that it empties also the output words and bytes the model still holds (R253
leaves them to the host), is the model's choice (log 8). -/
def Obligations.CfgFaultExactlyOnIllegalStraps : Prop :=
  ∀ (s : State) (p : Config.Straps), s.resetIn = some p →
    ∃ t, step s = .next t ∧ t.cfg.straps = p ∧
      t.io = { cmd := [], hdi := [], rsp := [], hdo := [], aout := [], ain := [] } ∧
      (t.cfg.cfgFault = false ↔
        1 ≤ p.srIn.toNat ∧ 1 ≤ p.srOut.toNat ∧ (1 ≤ p.spf.toNat ∧ p.spf.toNat ≤ 1024) ∧
        (p.ssIn.toNat = 2 ∨ p.ssIn.toNat = 4) ∧ (p.ssOut.toNat = 2 ∨ p.ssOut.toNat = 4) ∧
        p.spf.toNat * p.srOut.toNat % p.srIn.toNat = 0 ∧
        1 ≤ p.spf.toNat * p.srOut.toNat / p.srIn.toNat ∧ p.spf.toNat * p.srOut.toNat / p.srIn.toNat ≤ 4096)

/-- No command writes a configuration register, `cfgFault`, the reset input or the bindings (R21, R22, R41), and a command
reads nothing from `CMD`, leaves `HDI` alone unless it is `TXINIT`, and leaves `AIN` alone unless it is `RXRECV` (R64, R65). -/
def Obligations.ConfigurationIsImmutable : Prop :=
  ∀ (i : Instr) (s t : State), exec i s = .next t →
    t.cfg = s.cfg ∧ t.resetIn = s.resetIn ∧ t.prims = s.prims ∧ t.io.cmd = s.io.cmd ∧
    ((∀ p v l, i ≠ .txinit p v l) → t.io.hdi = s.io.hdi) ∧ (i ≠ .rxrecv → t.io.ain = s.io.ain) ∧
    (i ≠ .txsend → t.io.aout = s.io.aout) ∧
    (i ≠ .txtake16 → i ≠ .rxtake → i ≠ .rxspec → t.io.hdo = s.io.hdo)

/-- R20: transmit and receive state are disjoint: a command that is no transmit command leaves the transmit state, one that is
no receive command leaves the receive state, and what `RXRECV` does to the receive state and `TXSEND` to the transmit state
does not depend on the other. -/
def Obligations.TransmitAndReceiveAreDisjoint : Prop :=
  (∀ (i : Instr) (s t : State), exec i s = .next t →
    ((∀ p v l, i ≠ .txinit p v l) → i ≠ .txsend → i ≠ .txtake16 → t.tx = s.tx) ∧
    (i ≠ .rxrecv → i ≠ .rxtake → i ≠ .rxspec → t.rx = s.rx)) ∧
  (∀ (s t : State) (tx' : TxState), exec .rxrecv s = .next t →
    exec .rxrecv { s with tx := tx' } = .next { t with tx := tx' }) ∧
  (∀ (s t : State) (rx' : RxState), exec .txsend s = .next t →
    exec .txsend { s with rx := rx' } = .next { t with rx := rx' }) ∧
  (∀ (s t : State) (rx' : RxState) (p : BitVec 4) (v : BitVec 8) (l : BitVec 12), exec (.txinit p v l) s = .next t →
    exec (.txinit p v l) { s with rx := rx' } = .next { t with rx := rx' })

/-! ## Register read and catalog -/

/-- R220: every index 0 to 14 answers its register, zero-extended, and changes nothing; every other index is `ILLEGAL`.
The clause for 15 and above speaks of operands no decoded word has: that `exec` answers a next state there is the model's
choice (log 1). -/
def Obligations.RdregAnswersTheRegister : Prop :=
  ∀ (s : State) (idx : BitVec 8), s.cfg.cfgFault = false →
    (∀ h : idx.toNat < 15,
      exec (.rdreg idx) s = .next (s.answered
        ([ s.cfg.srIn, s.cfg.srOut, s.cfg.spf.setWidth 32, s.cfg.ssIn.setWidth 32, s.cfg.ssOut.setWidth 32, s.cfg.hzPerBin,
           s.cfg.freqDeltaBin.setWidth 32, s.cfg.freqDeltaHz, s.cfg.nBitsInMarker.setWidth 32,
           s.cfg.nMarkerFrames.setWidth 32, s.cfg.nPostMarkerFrames.setWidth 32, s.cfg.encDataOffset.setWidth 32,
           s.cfg.txSpf.setWidth 32, s.cfg.nBins.setWidth 32, statusWord s ][idx.toNat]'h))) ∧
    (15 ≤ idx.toNat → exec (.rdreg idx) s = .next s.refusedIllegal)

/-- R221: each bit of `STATUS`, and its value after a reset with a legal configuration. -/
def Obligations.StatusWordBits : Prop :=
  (∀ s : State,
    (statusWord s).getLsbD 0 = s.tx.hasData ∧ (statusWord s).getLsbD 1 = s.rx.analyzing ∧
    (statusWord s).getLsbD 2 = s.rx.receiving ∧ (statusWord s).getLsbD 3 = s.rx.rxNew ∧
    (statusWord s).getLsbD 4 = s.rx.specNew ∧ ((statusWord s).getLsbD 5 = true ↔ s.tx.amp16Count.toNat ≠ 0) ∧
    (statusWord s).getLsbD 6 = s.rx.corrected ∧ ∀ i, 7 ≤ i → (statusWord s).getLsbD i = false) ∧
  (∀ (b : Config.Primitives) (p : Config.Straps), legalConfig p = true →
    exec (.rdreg 14) (State.afterReset b p) = .next ((State.afterReset b p).answered 0x00000002#32))

/-- R103, R104: the catalog length and the default entry. -/
def Obligations.CatalogLengthAndDefault : Prop :=
  ∀ s : State, s.cfg.cfgFault = false →
    exec .catlen s = .next (s.answered 6) ∧ exec .catdef s = .next (s.answered 1)

/-- R105, R101, R88: the packed entries of the six rows; an index above 5 is `ILLEGAL`. The clause for 6
and above speaks of operands no decoded word has: that `exec` answers a next state there is the model's choice (log 1). -/
def Obligations.CatgetAnswersThePackedRow : Prop :=
  ∀ (s : State) (idx : BitVec 8), s.cfg.cfgFault = false →
    (∀ h : idx.toNat < 6,
      exec (.catget idx) s = .next (s.answered
        ([ BitVec.ofNat 32 (3 * 2 ^ 20 + 9 * 2 ^ 12 + 40), BitVec.ofNat 32 (3 * 2 ^ 20 + 6 * 2 ^ 12 + 40),
           BitVec.ofNat 32 (3 * 2 ^ 20 + 3 * 2 ^ 12 + 40), BitVec.ofNat 32 (3 * 2 ^ 20 + 9 * 2 ^ 12 + 320),
           BitVec.ofNat 32 (3 * 2 ^ 20 + 6 * 2 ^ 12 + 320), BitVec.ofNat 32 (3 * 2 ^ 20 + 3 * 2 ^ 12 + 320) ][idx.toNat]'h))) ∧
    (6 ≤ idx.toNat → exec (.catget idx) s = .next s.refusedIllegal)

/-- R107, R102: `CATNAME` answers four bytes of the zero-padded ASCII name, the first in the least significant byte; an index
above 5 or a word offset above 3 is `ILLEGAL`. That last clause speaks of operands no decoded word has: that `exec` answers a
next state there is the model's choice (log 1). -/
def Obligations.CatnameAnswersNameBytes : Prop :=
  ∀ (s : State) (idx sub : BitVec 8), s.cfg.cfgFault = false →
    (∀ (h : idx.toNat < 6), sub.toNat < 4 →
      ∃ v : Word, exec (.catname idx sub) s = .next (s.answered v) ∧
        ∀ j, j < 4 → v.toNat / 256 ^ j % 256 =
          (((["Normal", "Fast", "Fastest", "[U] Normal", "[U] Fast", "[U] Fastest"][idx.toNat]'h).toList.map
            Char.toNat).getD (4 * sub.toNat + j) 0)) ∧
    (6 ≤ idx.toNat ∨ 4 ≤ sub.toNat → exec (.catname idx sub) s = .next s.refusedIllegal)

/-- R106: the five conditions of `PROTO_OK`, by the catalog's fields; all entries pass at the reference configuration, and
neither `TXINIT` nor the marker detector takes an entry that fails. -/
def Obligations.ProtoOkConditions : Prop :=
  (∀ (cfg : CfgState) (p : ProtoId),
    protoOk cfg p = true ↔
      (1 ≤ framesPerGroup p ∧ 1 ≤ bytesPerGroup p) ∧ 8 * bytesPerGroup p ≤ 256 ∧
      fs p + 2 * max (8 * bytesPerGroup p) 16 - 1 ≤ cfg.spf.toNat / 2 ∧
      2 * (fs p + 2 * (max (8 * bytesPerGroup p) 16 - 1)) < cfg.txSpf.toNat ∧
      8 + nGroups 140 (bytesPerGroup p) * framesPerGroup p ≤ 1024) ∧
  (∀ p : ProtoId, protoOk (CfgState.afterReset Config.reference) p = true) ∧
  (∀ (cfg : CfgState) (length proto volume : Nat) (p : ProtoId),
    initValid cfg length proto volume = some p → protoOk cfg p = true) ∧
  ∀ (cfg : CfgState) (rx : RxState) (m : List Mag) (p : ProtoId), detect cfg rx m = some p → protoOk cfg p = true

/-- R108: the marker word's slots 0 to 7 are the fixed pattern, 8 to 11 the protocol index, 12 to 15 its complement; exactly
eight slots are on, and two protocols differ in at least two. -/
def Obligations.MarkerWordPattern : Prop :=
  (∀ (p : ProtoId) (s : Nat), s < 16 →
    markerOn p s =
      if s < 8 then decide (s % 2 = 0) else if s < 12 then p.val.testBit (s - 8) else !p.val.testBit (s - 12)) ∧
  (∀ p : ProtoId, ((List.range 16).filter (markerOn p)).length = 8) ∧
  (∀ p q : ProtoId, p ≠ q → 2 ≤ ((List.range 16).filter fun s => markerOn p s != markerOn q s).length)

/-! ## Frame codec -/

/-- R118: the bounds of the encoded stream for every legal length and block size, and the catalog's sizes. -/
def Obligations.EncodedStreamBounds : Prop :=
  (∀ len k : Nat, 1 ≤ len → len ≤ 140 → 1 ≤ k → k ≤ 32 →
    nBlocks len k ≤ 141 ∧ encLen len k ≤ 564 ∧ nGroups len k * k ≤ encLen len k + k - 1 ∧ nGroups len k * k ≤ 595 ∧
    headerGroup k + 1 ≤ nGroups len k) ∧
  encLen 140 1 = 564 ∧
  (∀ len, 1 ≤ len → len ≤ 2 → nBlocks len 3 = 1 ∧ encLen len 3 = 6 ∧ nGroups len 3 = 2) ∧
  (∀ len, 3 ≤ len → len ≤ 5 → nBlocks len 3 = 2 ∧ encLen len 3 = 12 ∧ nGroups len 3 = 4) ∧
  nBlocks 140 3 = 47 ∧ encLen 140 3 = 282 ∧ nGroups 140 3 = 94

/-- R115, R116, R120: the encoded stream is `nBlocks` blocks, block `i` being the `i`-th piece of length byte, payload and zero
padding, followed by its parity. -/
def Obligations.EncodedStreamLayout : Prop :=
  ∀ (c : EccCode) (k len : Nat) (pl : List Byte), 1 ≤ k → k ≤ 32 → 1 ≤ len → len ≤ 140 → pl.length = len →
    (∀ d, d.length = k → (c.enc d).length = 3) →
    ∃ enc, fecEncode c pl len k = some enc ∧ enc.length = (len + 1 + k - 1) / k * (k + 3) ∧
      ∀ i, i < (len + 1 + k - 1) / k →
        ∃ d, d.length = k ∧ (enc.drop (i * (k + 3))).take (k + 3) = d ++ c.enc d ∧
          ∀ j, j < k → d.getD j 0 = ((BitVec.ofNat 8 len :: pl).getD (i * k + j) 0)

/-- R123: for every code that meets ECC-1 to ECC-3, a stream with at most one byte altered in each block decodes to the
payload, `corrected` being 1 exactly when a byte was altered; what follows the stream does not matter. -/
def Obligations.CodecRoundTripWithOneErrorPerBlock : Prop :=
  ∀ (c : EccCode) (k len : Nat) (pl enc enc' tail : List Byte), 1 ≤ k → k ≤ 32 → c.Contract k →
    1 ≤ len → len ≤ 140 → pl.length = len → fecEncode c pl len k = some enc → enc'.length = enc.length →
    (∀ i, i < nBlocks len k → byteDistance (piece enc' i (k + 3)) (piece enc i (k + 3)) ≤ 1) →
    fecDecode c (enc' ++ tail) k = some { pl := pl, len := len, corrected := decide (enc' ≠ enc) }

/-- R121, R122, R232: the header check and the decode read block 0's length byte, fail exactly when a block fails or that byte
is 0 or above 140; `corrected` is the union of the blocks' bits, and the payload is the blocks' data after the length byte. -/
def Obligations.DecodeFailsExactlyWhenABlockOrTheLengthDoes : Prop :=
  ∀ (c : EccCode) (enc : List Byte) (k : Nat), 1 ≤ k →
    (∀ len, hdrCheck c enc k = some len ↔
      ∃ d b, c.dec (enc.take (k + 3)) = some (d, b) ∧ (d.getD 0 0).toNat = len ∧ 1 ≤ len ∧ len ≤ 140) ∧
    (fecDecode c enc k = none ↔
      hdrCheck c enc k = none ∨
      ∃ len i, hdrCheck c enc k = some len ∧ 1 ≤ i ∧ i < nBlocks len k ∧
        c.dec ((enc.drop (i * (k + 3))).take (k + 3)) = none) ∧
    (∀ r, fecDecode c enc k = some r →
      hdrCheck c enc k = some r.len ∧
      (r.corrected = true ↔
        ∃ i d, i < nBlocks r.len k ∧ c.dec ((enc.drop (i * (k + 3))).take (k + 3)) = some (d, true)) ∧
      ∃ data : Nat → List Byte,
        (∀ i, i < nBlocks r.len k → ∃ b, c.dec ((enc.drop (i * (k + 3))).take (k + 3)) = some (data i, b)) ∧
        r.pl = (((List.range (nBlocks r.len k)).flatMap data).drop 1).take r.len)

/-- R114: the reference instance `RS3` meets ECC-1, ECC-2 and ECC-3 for every block size. -/
def Obligations.ReferenceCodeMeetsItsContract : Prop :=
  ∀ k : Nat, 1 ≤ k → k ≤ 32 → rs3.Contract k

/-! ## Transmit -/

/-- R143, R144: a `TXINIT` that passes `INIT_VALID` (R141) pops its bytes, commits everything at once and answers 1. -/
def Obligations.TxinitCommits : Prop :=
  ∀ (s : State) (proto : BitVec 4) (volume : BitVec 8) (length : BitVec 12) (p : ProtoId),
    s.cfg.cfgFault = false → length.toNat ≤ s.io.hdi.length → 1 ≤ length.toNat → length.toNat ≤ 140 →
    proto.toNat = p.val → protoOk s.cfg p = true → volume.toNat ≤ 100 →
    ∃ enc, fecEncode (eccCode s.prims.ecc) (s.io.hdi.take length.toNat) length.toNat (bytesPerGroup p) = some enc ∧
      exec (.txinit proto volume length) s = .next (State.answered
        { s with
          io := { s.io with hdi := s.io.hdi.drop length.toNat }
          tx :=
            { protocolId := p
              len := BitVec.ofNat 8 length.toNat
              volume := BitVec.ofNat 7 volume.toNat
              payload := s.io.hdi.take length.toNat ++ s.tx.payload.drop length.toNat
              enc := enc ++ s.tx.enc.drop enc.length
              encLen := BitVec.ofNat 10 enc.length
              groups := BitVec.ofNat 10 ((enc.length + bytesPerGroup p - 1) / bytesPerGroup p)
              unit := 0
              hasData := true
              out := s.tx.out
              outCount := 0
              amp16Count := 0 } } 1)

/-- R141, R142, R231: a `TXINIT` that fails one of the four conditions pops its bytes, answers 0 and changes nothing else. -/
def Obligations.TxinitFailureChangesNothing : Prop :=
  ∀ (s : State) (proto : BitVec 4) (volume : BitVec 8) (length : BitVec 12),
    s.cfg.cfgFault = false → length.toNat ≤ s.io.hdi.length →
    ¬ ((1 ≤ length.toNat ∧ length.toNat ≤ 140) ∧ (∃ p : ProtoId, proto.toNat = p.val ∧ protoOk s.cfg p = true) ∧
        volume.toNat ≤ 100) →
    exec (.txinit proto volume length) s =
      .next (State.answered { s with io := { s.io with hdi := s.io.hdi.drop length.toNat } } 0)

/-- R145, R147, R154, R233: `TXSEND` emits the samples of one unit, or, with `hasTxData = 0`, is a no-op. -/
def Obligations.TxsendEmitsOneUnit : Prop :=
  ∀ s : State, s.cfg.cfgFault = false →
    (s.tx.hasData = false → exec .txsend s = .next (s.answered 0)) ∧
    (s.tx.hasData = true →
      ∃ smp : List I16,
        smp = (if s.tx.unit.toNat = 0 then preamble s.cfg.txSpf.toNat s.tx.protocolId s.tx.volume.toNat
          else dataGroup s.cfg.txSpf.toNat s.tx s.tx.protocolId (s.tx.unit.toNat - 1) s.tx.volume.toNat) ∧
        exec .txsend s = .next (State.answered
          { s with
            tx :=
              { s.tx with
                out := smp ++ s.tx.out.drop smp.length
                outCount := BitVec.ofNat 17 smp.length
                amp16Count := BitVec.ofNat 17 smp.length
                unit := s.tx.unit + 1
                hasData := decide (s.tx.unit.toNat ≠ s.tx.groups.toNat) }
            io :=
              { s.io with
                aout := s.io.aout ++
                  smp.flatMap fun v => if s.cfg.ssOut.toNat = 2 then le16 v else le32 (i16ToF32 v) } }
          (BitVec.ofNat 32 (smp.length * s.cfg.ssOut.toNat))))

/-- R148, R153, R119: the preamble is 16 copies of the marker frame, a data group `F` copies of the frame whose on-set is the
set bits of its `K` bytes, bytes at or beyond `txEncLen` reading as 0. -/
def Obligations.UnitsAreRepeatedFrames : Prop :=
  ∀ (l : Nat) (tx : TxState) (p : ProtoId) (g vol : Nat),
    (preamble l p vol).length = 16 * l ∧ (dataGroup l tx p g vol).length = framesPerGroup p * l ∧
    (∀ f i, f < 16 → i < l →
      (preamble l p vol)[f * l + i]? = (frame l p ((List.range 16).filter fun s => (markerWord p).getLsbD s) vol)[i]?) ∧
    (∀ f i, f < framesPerGroup p → i < l →
      (dataGroup l tx p g vol)[f * l + i]? = (frame l p (groupSet tx p g) vol)[i]?) ∧
    (∀ b, b ∈ groupSet tx p g ↔
      b < 8 * bytesPerGroup p ∧ g * bytesPerGroup p + b / 8 < tx.encLen.toNat ∧
        (tx.enc.getD (g * bytesPerGroup p + b / 8) 0).getLsbD (b % 8) = true) ∧
    (groupSet tx p g).Nodup

/-- R151, R15: sample `i` of a frame is the truncated quotient of the scaled sum of the on-set's tones; no sample is clipped. -/
def Obligations.FrameSamples : Prop :=
  ∀ (l : Nat) (p : ProtoId) (onSet : List Nat) (vol : Nat),
    (frame l p onSet vol).length = l ∧
    ∀ i, i < l →
      (frame l p onSet vol)[i]? =
        some (BitVec.ofInt 16 (Int.tdiv (vol * (onSet.map fun b => sine (((fs p + 2 * b) * i) % l) l).sum)
          (100 * max (8 * bytesPerGroup p) 16 : Nat))) ∧
      (vol ≤ 100 → onSet.Nodup → (∀ b ∈ onSet, b < max (8 * bytesPerGroup p) 16) →
        ((frame l p onSet vol).getD i 0).toInt =
            Int.tdiv (vol * (onSet.map fun b => sine (((fs p + 2 * b) * i) % l) l).sum)
              (100 * max (8 * bytesPerGroup p) 16 : Nat) ∧
          ((frame l p onSet vol).getD i 0).toInt.natAbs ≤ 32767)

/-- R150: `SINE(p, q)` is the integer nearest to `32767 sin(2 pi p / q)`, a tie going to the even integer. -/
def Obligations.SineIsTheNearestInteger : Prop :=
  ∀ p q : Nat, p < q →
    |32767 * Real.sin (2 * Real.pi * p / q) - sine p q| ≤ 1 / 2 ∧
    (|32767 * Real.sin (2 * Real.pi * p / q) - sine p q| = 1 / 2 → Even (sine p q))

/-- The facts R150 lists of `SINE` as derived from its definition: bound, quarter turns, symmetry, the only ties and their
values, dependence on the fraction alone, and its sample values. -/
def Obligations.SineListedFacts : Prop :=
  (∀ p q : Nat, p < q → |sine p q| ≤ 32767) ∧
  (∀ q : Nat, 0 < q → sine 0 q = 0 ∧ sine q (2 * q) = 0 ∧ sine q (4 * q) = 32767 ∧ sine (3 * q) (4 * q) = -32767) ∧
  (∀ p q : Nat, 0 < p → p < q → sine (q - p) q = -sine p q) ∧
  (∀ q : Nat, 0 < q → sine q (12 * q) = 16384 ∧ sine (5 * q) (12 * q) = 16384 ∧ sine (7 * q) (12 * q) = -16384 ∧
    sine (11 * q) (12 * q) = -16384) ∧
  (∀ p q : Nat, p < q → |32767 * Real.sin (2 * Real.pi * p / q) - sine p q| = 1 / 2 →
    12 * p = q ∨ 12 * p = 5 * q ∨ 12 * p = 7 * q ∨ 12 * p = 11 * q) ∧
  (∀ p q n : Nat, p < q → 0 < n → sine (n * p) (n * q) = sine p q) ∧
  sine 1 1024 = 201 ∧ sine 64 1024 = 12539 ∧ sine 128 1024 = 23170 ∧ sine 40 1024 = 7962

/-- R152: `I16TOF32(v)` is the binary32 word of `v / 32768`, exactly, and is never a subnormal, an infinity or a NaN. -/
def Obligations.FloatViewIsExact : Prop :=
  ∀ v : I16, f32Value (i16ToF32 v) = (v.toInt : ℚ) / 32768 ∧
    ((i16ToF32 v).extractLsb' 23 8).toNat < 255 ∧
    (v ≠ 0 → 112 ≤ ((i16ToF32 v).extractLsb' 23 8).toNat) ∧ (v = 0 → i16ToF32 v = 0)

/-- R155, R156: `TXHAS` answers `hasTxData`; `TXTAKE16` hands over the samples not yet taken and clears their count. -/
def Obligations.TransmitAccessors : Prop :=
  ∀ s : State, s.cfg.cfgFault = false →
    exec .txhas s = .next (s.answered (if s.tx.hasData then 1 else 0)) ∧
    exec .txtake16 s = .next (State.answered
      { s with
        tx := { s.tx with amp16Count := 0 }
        io := { s.io with hdo := s.io.hdo ++ (s.tx.out.take s.tx.amp16Count.toNat).flatMap le16 } }
      (BitVec.ofNat 32 s.tx.amp16Count.toNat))

/-- R158, R270 (a): from any state in mid-transmission that meets the invariant, exactly `1 + txGroups - txUnit` further
`TXSEND`s push bytes; after them `hasTxData = 0` and the next `TXSEND` pushes nothing. -/
def Obligations.TransmissionTakesExactlyItsUnits : Prop :=
  ∀ s : State, s.Inv → s.cfg.cfgFault = false → s.tx.hasData = true →
    (∀ n, n < 1 + s.tx.groups.toNat - s.tx.unit.toNat →
      ∃ t u, execTimes .txsend n s = some t ∧ t.tx.hasData = true ∧ exec .txsend t = .next u ∧
        ∃ v : Word, v ≠ 0 ∧ u.io.rsp = t.io.rsp ++ [0, v] ∧ u.io.aout.length = t.io.aout.length + v.toNat) ∧
    ∃ t, execTimes .txsend (1 + s.tx.groups.toNat - s.tx.unit.toNat) s = some t ∧ t.tx.hasData = false ∧
      exec .txsend t = .next (t.answered 0)

/-! ## Receive-side accessors -/

/-- R200, R201: the two state-machine observers. -/
def Obligations.StateObservers : Prop :=
  ∀ s : State, s.cfg.cfgFault = false →
    exec .rxisrecv s = .next (s.answered (if s.rx.receiving then 1 else 0)) ∧
    exec .rxisana s = .next (s.answered (if s.rx.analyzing then 1 else 0))

/-- R202 to R205: the four frame counters. -/
def Obligations.FrameCounters : Prop :=
  ∀ s : State, s.cfg.cfgFault = false →
    exec .rxftr s = .next (s.answered (BitVec.ofNat 32 s.rx.framesToRecord.toNat)) ∧
    exec .rxfltr s = .next (s.answered (BitVec.ofNat 32 s.rx.framesLeftToRecord.toNat)) ∧
    exec .rxfta s = .next (s.answered (BitVec.ofNat 32 s.rx.framesToAnalyze.toNat)) ∧
    exec .rxflta s = .next (s.answered (BitVec.ofNat 32 s.rx.framesLeftToAnalyze.toNat))

/-- R208, R209: the protocol of the last successful reception, packed and as an index. -/
def Obligations.ProtocolAccessors : Prop :=
  ∀ s : State, s.cfg.cfgFault = false →
    exec .rxproto s = .next (s.answered
      (BitVec.ofNat 32 (bytesPerGroup s.rx.protocolId * 2 ^ 20 + framesPerGroup s.rx.protocolId * 2 ^ 12 +
        fs s.rx.protocolId))) ∧
    exec .rxprotoid s = .next (s.answered (BitVec.ofNat 32 s.rx.protocolId.val))

/-- R207: `RXTAKE` hands over the payload, clears `rxNew` and `rxDataLength` and answers the length. -/
def Obligations.RxtakeHandsOverThePayload : Prop :=
  ∀ s : State, s.cfg.cfgFault = false →
    exec .rxtake s = .next (State.answered
      { s with
        rx := { s.rx with rxNew := false, dataLength := 0 }
        io := { s.io with hdo := s.io.hdo ++ s.rx.data.take s.rx.dataLength.toNat } }
      (BitVec.ofNat 32 s.rx.dataLength.toNat))

/-- R134: `RXSPEC` hands over the latest spectrum once. -/
def Obligations.RxspecHandsOverTheSpectrum : Prop :=
  ∀ s : State, s.cfg.cfgFault = false →
    (s.rx.specNew = true →
      exec .rxspec s = .next (State.answered
        { s with
          rx := { s.rx with specNew := false }
          io := { s.io with hdo := s.io.hdo ++ s.rx.spec.flatMap le32 } } 1)) ∧
    (s.rx.specNew = false → exec .rxspec s = .next (s.answered 0))

/-- R71: a taker used twice hands over nothing the second time; every other accessor changes no state. -/
def Obligations.TakersClearAndAccessorsDoNot : Prop :=
  (∀ (i : Instr) (s t : State), i = .txtake16 ∨ i = .rxtake ∨ i = .rxspec → s.cfg.cfgFault = false →
    exec i s = .next t →
    exec i t = .next (t.answered 0) ∧ (i = .txtake16 → t.tx.amp16Count = 0) ∧
      (i = .rxtake → t.rx.rxNew = false ∧ t.rx.dataLength = 0) ∧ (i = .rxspec → t.rx.specNew = false)) ∧
  (∀ (i : Instr) (s t : State), (∀ p v l, i ≠ .txinit p v l) →
    i ∉ [Instr.txsend, .txtake16, .rxrecv, .rxtake, .rxspec] → exec i s = .next t →
    t = { s with io := { s.io with rsp := t.io.rsp } })

/-! ## Receive -/

/-- R170: a pull that leaves the frame incomplete only adds its bytes to it; the answer is always `OK 0`. -/
def Obligations.RxrecvAccumulatesAPartialFrame : Prop :=
  ∀ s : State, s.cfg.cfgFault = false →
    s.rx.frameFill.toNat + (pullBytes s.io.ain (s.cfg.spf.toNat * s.cfg.ssIn.toNat - s.rx.frameFill.toNat)).1.length <
      s.cfg.spf.toNat * s.cfg.ssIn.toNat →
    s.cfg.spf.toNat * s.cfg.ssIn.toNat ≤ 4096 →
    let pulled := pullBytes s.io.ain (s.cfg.spf.toNat * s.cfg.ssIn.toNat - s.rx.frameFill.toNat)
    exec .rxrecv s = .next (State.answered
      { s with
        io := { s.io with ain := pulled.2 }
        rx :=
          { s.rx with
            frameBytes := s.rx.frameBytes.take s.rx.frameFill.toNat ++
              (pulled.1 ++ s.rx.frameBytes.drop (s.rx.frameFill.toNat + pulled.1.length))
            frameFill := BitVec.ofNat 13 (s.rx.frameFill.toNat + pulled.1.length) } } 0)

/-- R67, R130, R170, R171: a pull that completes the frame processes it once, whatever the engine is doing: `SPECTRUM` of the
frame's words gives `NBINS` magnitudes, `ANALYZE` runs first, then the step of the present state; the answer is always `OK 0`
and nothing but the receive state, `AIN` and `RSP` changes. The form of `AIN` is the model's (log 6), and so is the way an
instance's functions are selected (log 9, 10). -/
def Obligations.RxrecvProcessesACompleteFrame : Prop :=
  ∀ s : State, s.cfg.cfgFault = false →
    s.rx.frameFill.toNat + (pullBytes s.io.ain (s.cfg.spf.toNat * s.cfg.ssIn.toNat - s.rx.frameFill.toNat)).1.length =
      s.cfg.spf.toNat * s.cfg.ssIn.toNat →
    s.cfg.spf.toNat * s.cfg.ssIn.toNat ≤ 4096 → s.rx.frameBytes.length = s.cfg.spf.toNat * s.cfg.ssIn.toNat →
    let pulled := pullBytes s.io.ain (s.cfg.spf.toNat * s.cfg.ssIn.toNat - s.rx.frameFill.toNat)
    let bytes := s.rx.frameBytes.take s.rx.frameFill.toNat ++ pulled.1
    let words := frameWords s.cfg.ssIn.toNat s.cfg.spf.toNat bytes
    let m := spectrum s.prims.spectrum s.cfg.spf.toNat words
    let rx1 := analyze m { s.rx with frameBytes := bytes, frameFill := 0 }
    words.length = s.cfg.spf.toNat ∧ m.length = s.cfg.spf.toNat / 2 + 1 ∧
    exec .rxrecv s = .next (State.answered
      { s with
        io := { s.io with ain := pulled.2 }
        rx := if rx1.analyzing then analyzingStep s.cfg m rx1 else receivingStep (eccCode s.prims.ecc) m words rx1 } 0)

/-- R65, R69: one pull returns at most `max` bytes from the front of `AIN`, and no byte is dropped, duplicated or reordered. -/
def Obligations.PullTakesAPrefixOfTheStream : Prop :=
  ∀ (ain : List (List Byte)) (max : Nat),
    (pullBytes ain max).1.length ≤ max ∧ (pullBytes ain max).1 ++ (pullBytes ain max).2.flatten = ain.flatten

/-- R66, R67, R68: the samples of a frame come back from the bytes they are sent as: 16-bit samples as their float view, 4-byte
words unchanged, whatever follows. -/
def Obligations.SamplesSurviveTheByteStream : Prop :=
  (∀ (smp : List I16) (tail : List Byte),
    frameWords 2 smp.length (outputBytes 2 smp ++ tail) = smp.map i16ToF32 ∧
    frameWords 4 smp.length (outputBytes 4 smp ++ tail) = smp.map i16ToF32) ∧
  (∀ (ws : List Word) (tail : List Byte), frameWords 4 ws.length (ws.flatMap le32 ++ tail) = ws) ∧
  (∀ (v : I16), outputSample 2 v = [BitVec.ofNat 8 (v.toNat % 256), BitVec.ofNat 8 (v.toNat / 256)])

/-- R131, R132: the ring update bin by bin, exact in the mathematical integers under the receive invariant, and the
publication of the spectrum; nothing else changes. -/
def Obligations.AnalyzeUpdatesTheRing : Prop :=
  ∀ (cfg : CfgState) (rx : RxState) (m : List Mag), RxInv cfg rx → m.length = cfg.nBins.toNat →
    (∀ k, k < m.length →
      ((analyze m rx).histSum.getD k 0).toNat + (if rx.histCount.toNat = 4
          then ((rx.histBuf.getD rx.histHead.toNat []).getD k 0).toNat else 0) =
        (rx.histSum.getD k 0).toNat + (m.getD k 0).toNat) ∧
    analyze m rx =
      { rx with
        histSum := (analyze m rx).histSum
        histCount := if rx.histCount.toNat = 4 then rx.histCount else rx.histCount + 1
        histBuf := rx.histBuf.set rx.histHead.toNat m
        histHead := BitVec.ofNat 2 ((rx.histHead.toNat + 1) % 4)
        spec := m
        specNew := true }

/-- R133, R173: a slot is on exactly when its magnitude exceeds three times the local noise floor, as rationals; the floor is
the running average at the off bin, clamped from below by 4096. -/
def Obligations.SlotDecisionIsThreeTimesTheFloor : Prop :=
  ∀ (rx : RxState) (p : ProtoId) (s : Nat) (m : List Mag), 0 < rx.histCount.toNat →
    (slotOn rx p s m = true ↔
      3 * max (((rx.histSum.getD (fs p + 2 * s + 1) 0).toNat : ℚ) / rx.histCount.toNat) 4096 <
        ((m.getD (fs p + 2 * s) 0).toNat : ℚ))

/-- R174, R175: the detection of one frame is the least catalog index that passes `PROTO_OK` and whose sixteen marker slots
decide exactly as its marker word; of the protocols that share a starting bin at most one matches. -/
def Obligations.DetectionIsTheLeastMatch : Prop :=
  ∀ (cfg : CfgState) (rx : RxState) (m : List Mag) (d : ProtoId),
    let matched := fun p : ProtoId => protoOk cfg p = true ∧ ∀ s, s < 16 → slotOn rx p s m = (markerWord p).getLsbD s
    (detect cfg rx m = some d ↔ matched d ∧ ∀ p, p < d → ¬ matched p) ∧
    (detect cfg rx m = none ↔ ∀ p, ¬ matched p) ∧
    (∀ p q, matched p → matched q → fs p = fs q → p = q)

/-- R176, R177, R178, R179: the four outcomes of one frame in Analyzing. -/
def Obligations.AnalyzingStepCases : Prop :=
  ∀ (cfg : CfgState) (rx : RxState) (m : List Mag),
    (detect cfg rx m = none →
      analyzingStep cfg m rx = { rx with cand := none, framesLeftToAnalyze := rx.framesToAnalyze }) ∧
    ∀ d left, detect cfg rx m = some d →
      left = (if rx.cand = some d then rx.framesLeftToAnalyze - 1 else rx.framesToAnalyze - 1) →
      (left ≠ 0 → analyzingStep cfg m rx = { rx with cand := some d, framesLeftToAnalyze := left }) ∧
      (left = 0 → analyzingStep cfg m rx =
        { rx with
          curProto := d
          analyzing := false
          receiving := true
          framesLeftToAnalyze := 0
          framesToRecord := BitVec.ofNat 11 (8 + nGroups 140 (bytesPerGroup d) * framesPerGroup d)
          framesLeftToRecord := BitVec.ofNat 11 (8 + nGroups 140 (bytesPerGroup d) * framesPerGroup d)
          enc := List.replicate 600 0
          accOn := List.replicate 256 0
          accNf := List.replicate 256 0
          recorded := []
          cand := none })

/-- R181: which frames of a group are accumulated, and what each slot's accumulators get. -/
def Obligations.AccumulationSkipsEdgeFrames : Prop :=
  (∀ f j : Nat, j < f → (accumulates f j = false ↔ 3 ≤ f ∧ (j = 0 ∨ j = f - 1))) ∧
  ∀ (rx : RxState) (p : ProtoId) (m : List Mag) (j : Nat),
    (accumulates (framesPerGroup p) j = false → accumulate rx p m j = rx) ∧
    (accumulates (framesPerGroup p) j = true →
      accumulate rx p m j =
        { rx with accOn := (accumulate rx p m j).accOn, accNf := (accumulate rx p m j).accNf } ∧
      ∀ b, b < rx.accOn.length → b < rx.accNf.length →
        (accumulate rx p m j).accOn.getD b 0 = rx.accOn.getD b 0 +
          (if b < 8 * bytesPerGroup p then
            BitVec.ofNat 64 ((m.getD (fs p + 2 * b) 0).toNat * rx.histCount.toNat) else 0) ∧
        (accumulate rx p m j).accNf.getD b 0 = rx.accNf.getD b 0 +
          (if b < 8 * bytesPerGroup p then
            BitVec.ofNat 64 (max (rx.histSum.getD (fs p + 2 * b + 1) 0).toNat (4096 * rx.histCount.toNat)) else 0))

/-- R182: the group decision writes the group's `K` bytes of `rxEnc`, bit `j` of byte `i` being slot `8i + j`'s comparison, and
clears the accumulators. -/
def Obligations.GroupDecisionWritesItsBytes : Prop :=
  ∀ (rx : RxState) (p : ProtoId) (g : Nat), g * bytesPerGroup p + bytesPerGroup p ≤ rx.enc.length →
    decideGroup rx p g =
      { rx with enc := (decideGroup rx p g).enc, accOn := List.replicate 256 0, accNf := List.replicate 256 0 } ∧
    (decideGroup rx p g).enc.length = rx.enc.length ∧
    (∀ i j, i < bytesPerGroup p → j < 8 →
      (((decideGroup rx p g).enc.getD (g * bytesPerGroup p + i) 0).getLsbD j = true ↔
        3 * (rx.accNf.getD (8 * i + j) 0).toNat < (rx.accOn.getD (8 * i + j) 0).toNat)) ∧
    (∀ a, a < g * bytesPerGroup p ∨ g * bytesPerGroup p + bytesPerGroup p ≤ a →
      (decideGroup rx p g).enc.getD a 0 = rx.enc.getD a 0)

/-- R183: the header refinement. -/
def Obligations.HeaderRefinesTheDuration : Prop :=
  ∀ (c : EccCode) (rx : RxState) (p : ProtoId) (r : Nat),
    (hdrCheck c rx.enc (bytesPerGroup p) = none →
      refineHeader c rx p r = { rx with framesToRecord := BitVec.ofNat 11 (r + 1), framesLeftToRecord := 0 }) ∧
    (∀ h, hdrCheck c rx.enc (bytesPerGroup p) = some h →
      1 ≤ h ∧ h ≤ 140 ∧
      refineHeader c rx p r =
        { rx with
          framesToRecord := BitVec.ofNat 11 (8 + nGroups h (bytesPerGroup p) * framesPerGroup p)
          framesLeftToRecord := BitVec.ofNat 11 (8 + nGroups h (bytesPerGroup p) * framesPerGroup p - (r + 1)) })

/-- R180: the order of one frame in Receiving: recorded and counted, accumulated and, at a group's last frame, decided and
perhaps refined, and decoded when no frame is left. -/
def Obligations.ReceivingStepOrder : Prop :=
  ∀ (c : EccCode) (m : List Mag) (x : List Word) (rx : RxState),
    let p := rx.curProto
    let r := rx.framesToRecord.toNat - rx.framesLeftToRecord.toNat
    let g := (r - 8) / framesPerGroup p
    let j := (r - 8) % framesPerGroup p
    let counted := { rx with recorded := rx.recorded ++ [x], framesLeftToRecord := rx.framesLeftToRecord - 1 }
    let decided := decideGroup (accumulate counted p m j) p g
    let next :=
      if r < 8 then counted
      else if j ≠ framesPerGroup p - 1 then accumulate counted p m j
      else if g = (bytesPerGroup p + 3 + bytesPerGroup p - 1) / bytesPerGroup p - 1 then refineHeader c decided p r
      else decided
    receivingStep c m x rx = if next.framesLeftToRecord = 0 then decoding c next else next

/-- R184, R185, R186, R187: Decoding surfaces the payload of a successful decode, surfaces nothing otherwise, and returns to
Analyzing on both outcomes. -/
def Obligations.DecodingSurfacesOrDrops : Prop :=
  ∀ (c : EccCode) (rx : RxState),
    (fecDecode c rx.enc (bytesPerGroup rx.curProto) = none →
      decoding c rx =
        { rx with
          analyzing := true, receiving := false, framesLeftToAnalyze := rx.framesToAnalyze, cand := none
          framesToRecord := 0, framesLeftToRecord := 0 }) ∧
    (∀ d, fecDecode c rx.enc (bytesPerGroup rx.curProto) = some d →
      1 ≤ d.len ∧ d.len ≤ 140 ∧
      decoding c rx =
        { rx with
          data := d.pl ++ rx.data.drop d.pl.length, dataLength := BitVec.ofNat 9 d.len, protocolId := rx.curProto
          rxNew := true, corrected := d.corrected
          analyzing := true, receiving := false, framesLeftToAnalyze := rx.framesToAnalyze, cand := none
          framesToRecord := 0, framesLeftToRecord := 0 })

/-- R188, R270 (c): in a reception `framesLeftToRecord` falls by at least 1 with every processed frame, and the engine is back
in Analyzing after at most `framesLeftToRecord` frames, which is at most 1024. -/
def Obligations.ReceptionCountsDownAndEnds : Prop :=
  ∀ (cfg : CfgState) (c : EccCode) (rx : RxState), RxInv cfg rx → rx.receiving = true →
    (∀ (m : List Mag) (x : List Word), m.length = cfg.nBins.toNat →
      (processSpectrum cfg c m x rx).analyzing = true ∨
      ((processSpectrum cfg c m x rx).receiving = true ∧
        (processSpectrum cfg c m x rx).framesLeftToRecord.toNat + 1 ≤ rx.framesLeftToRecord.toNat)) ∧
    rx.framesLeftToRecord.toNat ≤ 1024 ∧
    ∀ fs : List (List Mag × List Word), (∀ f ∈ fs, f.1.length = cfg.nBins.toNat) →
      fs.length = rx.framesLeftToRecord.toNat →
      ∃ n, 1 ≤ n ∧ n ≤ fs.length ∧ (processSpectra cfg c (fs.take n) rx).analyzing = true

/-- R189: against any ring, no slot of a spectrum whose magnitudes are all at most 12288 is on, so no marker is detected in
it; and while every spectrum is such a one the engine stays in Analyzing with eight frames to go. -/
def Obligations.QuietInputNeverTriggers : Prop :=
  (∀ (cfg : CfgState) (rx : RxState) (m : List Mag), (∀ v ∈ m, v.toNat ≤ 12288) →
    (∀ (p : ProtoId) (slot : Nat), slotOn rx p slot m = false) ∧ detect cfg rx m = none) ∧
  ∀ (cfg : CfgState) (c : EccCode) (fs : List (List Mag × List Word)) (rx : RxState),
    RxInv cfg rx → rx.analyzing = true → fs ≠ [] →
    (∀ f ∈ fs, f.1.length = cfg.nBins.toNat ∧ ∀ v ∈ f.1, v.toNat ≤ 12288) →
    (processSpectra cfg c fs rx).analyzing = true ∧ (processSpectra cfg c fs rx).receiving = false ∧
    (processSpectra cfg c fs rx).framesLeftToAnalyze.toNat = 8

/-- The receive half of the source's round-trip property S1 (R136, R170 to R186): from reset, the spectra of the frames of a
transmission, tones separated as R136 asks (its clause (c) read as: under every history ring, log 17), end in the payload,
its protocol and `corrected = 0`, for every code that decodes its own codewords. -/
def Obligations.IdealSpectraDeliverThePayload : Prop :=
  ∀ (straps : Config.Straps) (c : EccCode) (p : ProtoId) (m : List Nat → List Mag) (x : List Nat → List Word)
    (pl enc : List Byte) (len : Nat),
    legalConfig straps = true → protoOk (CfgState.afterReset straps) p = true →
    ToneSeparation (CfgState.afterReset straps) m p →
    (∀ d, d.length = bytesPerGroup p → (c.enc d).length = 3) →
    (∀ d, d.length = bytesPerGroup p → c.dec (d ++ c.enc d) = some (d, false)) →
    1 ≤ len → len ≤ 140 → pl.length = len → fecEncode c pl len (bytesPerGroup p) = some enc →
    let rx := processSpectra (CfgState.afterReset straps) c ((transmissionSets p enc).map fun b => (m b, x b))
      (RxState.afterReset straps)
    rx.analyzing = true ∧ rx.rxNew = true ∧ rx.dataLength.toNat = len ∧ rx.data.take len = pl ∧ rx.protocolId = p ∧
      rx.corrected = false

/-! ## Invariant -/

/-- R43 at reset, for every strap value and every binding. -/
def Obligations.ResetMeetsTheInvariant : Prop :=
  ∀ (b : Config.Primitives) (p : Config.Straps), (State.afterReset b p).Inv

/-- R43: every step keeps the invariant, in every state that meets it. -/
def Obligations.EveryStepKeepsTheInvariant : Prop :=
  ∀ s t : State, s.Inv → step s = .next t → t.Inv
end

