-- ==== Sys2Proof/Laws/Codec.lean ====
section
/-! SUPPORT. Laws/Codec.lean: the lengths the codec, the analyzer and the synthesizer give, and what their conditional steps
leave alone. -/

namespace Sys2Proof.Machine

open Sys2Proof.Config

/-! ### The error-correcting code of an instance -/

theorem externalEcc_enc_length (d : List Byte) : (externalEcc.enc d).length = eccParity := by
  simp [externalEcc]

theorem rs3_enc_length (d : List Byte) : (rs3.enc d).length = eccParity := rfl

theorem eccCode_enc_length (b : EccBinding) (d : List Byte) : ((eccCode b).enc d).length = eccParity := by
  cases b
  · exact externalEcc_enc_length d
  · exact rs3_enc_length d

/-! ### Catalog -/

theorem bytesPerGroup_eq (p : ProtoId) : bytesPerGroup p = 3 := by revert p; decide

theorem framesPerGroup_bounds (p : ProtoId) : 3 ≤ framesPerGroup p ∧ framesPerGroup p ≤ 9 := by revert p; decide

theorem ampSlots_eq (p : ProtoId) : ampSlots p = 24 := by revert p; decide

theorem longestRecording_eq (p : ProtoId) : longestRecording p = 8 + 94 * framesPerGroup p := by revert p; decide

/-! ### Codec -/

theorem lengthOk_iff {len : Nat} : lengthOk len = true ↔ 1 ≤ len ∧ len ≤ 140 := by
  rw [lengthOk, Bool.and_eq_true, decide_eq_true_eq, decide_eq_true_eq]; rfl

theorem fecEncode_eq_some {c : EccCode} {pl : List Byte} {len k : Nat} (h : lengthOk len = true) :
    fecEncode c pl len k =
      some ((List.range (nBlocks len k)).flatMap fun i => c.codeword (piece (framedPayload pl len k) i k)) := by
  simp [fecEncode, h]

theorem initValid_eq_some {cfg : CfgState} {length proto volume : Nat} {p : ProtoId}
    (h : initValid cfg length proto volume = some p) :
    lengthOk length = true ∧ protoOf proto = some p ∧ protoOk cfg p = true ∧ volume ≤ volMax := by
  unfold initValid at h
  split at h
  · cases h
  · rename_i q hq
    split at h
    · rename_i hc
      cases h
      simp only [Bool.and_eq_true, decide_eq_true_eq] at hc
      exact ⟨hc.1.1, hq, hc.1.2, hc.2⟩
    · cases h

/-! ### Analyzer and receive engine -/

@[simp] theorem spectrum_length (b : SpectrumBinding) (n : Nat) (x : List Word) : (spectrum b n x).length = n / 2 + 1 := by
  simp [spectrum]

@[simp] theorem evict_length (sum : List (BitVec 34)) (old : List Mag) :
    (evict sum old).length = min sum.length old.length := by
  simp [evict]

@[simp] theorem addSpectrum_length (sum : List (BitVec 34)) (m : List Mag) :
    (addSpectrum sum m).length = min sum.length m.length := by
  simp [addSpectrum]

/-- `ACCUMULATE` writes the accumulators only, and keeps their number. -/
theorem accumulate_frame (rx : RxState) (p : ProtoId) (m : List Mag) (j : Nat) :
    accumulate rx p m j = { rx with accOn := (accumulate rx p m j).accOn, accNf := (accumulate rx p m j).accNf } ∧
    (accumulate rx p m j).accOn.length = rx.accOn.length ∧ (accumulate rx p m j).accNf.length = rx.accNf.length := by
  unfold accumulate
  split <;> simp

/-- The header refinement writes the two recording counters only. -/
theorem refineHeader_frame (c : EccCode) (rx : RxState) (p : ProtoId) (r : Nat) :
    refineHeader c rx p r =
      { rx with
        framesToRecord := (refineHeader c rx p r).framesToRecord
        framesLeftToRecord := (refineHeader c rx p r).framesLeftToRecord } := by
  unfold refineHeader
  split <;> rfl

/-- The two ways Decoding can end; both return to Analyzing. -/
theorem decoding_returns (c : EccCode) (rx : RxState) :
    ∃ rx' : RxState, decoding c rx = returnToAnalyzing rx' ∧
      (rx' = rx ∨ ∃ d, fecDecode c rx.enc (bytesPerGroup rx.curProto) = some d ∧ rx' = surface rx d) := by
  unfold decoding
  split
  · rename_i d hd; exact ⟨_, rfl, .inr ⟨d, hd, rfl⟩⟩
  · exact ⟨_, rfl, .inl rfl⟩

/-- What `DETECT` answers passes `PROTO_OK` and matches. -/
theorem detect_matches {cfg : CfgState} {rx : RxState} {m : List Mag} {p : ProtoId} (h : detect cfg rx m = some p) :
    protoOk cfg p = true ∧ markerMatch rx p m = true := by
  simpa using List.find?_some (p := fun p => protoOk cfg p && markerMatch rx p m) h

/-! ### Synthesizer -/

theorem copies_length {α : Type} (n : Nat) (l : List α) : (copies n l).length = n * l.length := by
  simp [copies]

@[simp] theorem frame_length (l : Nat) (p : ProtoId) (onSet : List Nat) (vol : Nat) : (frame l p onSet vol).length = l := by
  simp [frame]

end Sys2Proof.Machine
end

