-- ==== Sys2Proof/Laws/Encoding.lean ====
section
/-! SUPPORT. Laws/Encoding.lean: the words of the three formats as numbers, and their fields read back (R80 to R83). -/

namespace Sys2Proof

theorem toNat_append_eq {m n : Nat} (x : BitVec m) (y : BitVec n) : (x ++ y).toNat = x.toNat * 2 ^ n + y.toNat := by
  rw [BitVec.toNat_append, ← Nat.shiftLeft_add_eq_or_of_lt y.isLt, Nat.shiftLeft_eq]

theorem wordN_toNat (opc : BitVec 8) : (wordN opc).toNat = opc.toNat * 2 ^ 24 := by
  have := toNat_append_eq opc (0 : BitVec 24)
  simpa [wordN] using this

theorem wordI_toNat (opc sub idx : BitVec 8) :
    (wordI opc sub idx).toNat = opc.toNat * 2 ^ 24 + sub.toNat * 2 ^ 8 + idx.toNat := by
  have h : (wordI opc sub idx).toNat = (opc ++ (0 : BitVec 8) ++ sub ++ idx).toNat := rfl
  rw [h, toNat_append_eq, toNat_append_eq, toNat_append_eq]
  have : (0 : BitVec 8).toNat = 0 := rfl
  omega

theorem wordT_toNat (opc : BitVec 8) (proto : BitVec 4) (volume : BitVec 8) (length : BitVec 12) :
    (wordT opc proto volume length).toNat =
      opc.toNat * 2 ^ 24 + proto.toNat * 2 ^ 20 + volume.toNat * 2 ^ 12 + length.toNat := by
  have h : (wordT opc proto volume length).toNat = (opc ++ proto ++ volume ++ length).toNat := rfl
  rw [h, toNat_append_eq, toNat_append_eq, toNat_append_eq]
  omega

/-- A field of a word, as a number. -/
theorem field_toNat (w : Word) (lo len : Nat) : (w.extractLsb' lo len).toNat = w.toNat / 2 ^ lo % 2 ^ len := by
  rw [BitVec.extractLsb'_toNat, Nat.shiftRight_eq_div_pow]

theorem opcField_wordN (opc : BitVec 8) : opcField (wordN opc) = opc := by
  apply BitVec.eq_of_toNat_eq; rw [opcField, field_toNat, wordN_toNat]; omega

theorem zeroFieldN_wordN (opc : BitVec 8) : zeroFieldN (wordN opc) = 0 := by
  apply BitVec.eq_of_toNat_eq; rw [zeroFieldN, field_toNat, wordN_toNat]; simp

theorem opcField_wordI (opc sub idx : BitVec 8) : opcField (wordI opc sub idx) = opc := by
  apply BitVec.eq_of_toNat_eq; rw [opcField, field_toNat, wordI_toNat]; omega

theorem zeroFieldI_wordI (opc sub idx : BitVec 8) : zeroFieldI (wordI opc sub idx) = 0 := by
  apply BitVec.eq_of_toNat_eq; rw [zeroFieldI, field_toNat, wordI_toNat]; simp; omega

theorem subField_wordI (opc sub idx : BitVec 8) : subField (wordI opc sub idx) = sub := by
  apply BitVec.eq_of_toNat_eq; rw [subField, field_toNat, wordI_toNat]; omega

theorem idxField_wordI (opc sub idx : BitVec 8) : idxField (wordI opc sub idx) = idx := by
  apply BitVec.eq_of_toNat_eq; rw [idxField, field_toNat, wordI_toNat]; omega

theorem opcField_wordT (opc : BitVec 8) (proto : BitVec 4) (volume : BitVec 8) (length : BitVec 12) :
    opcField (wordT opc proto volume length) = opc := by
  apply BitVec.eq_of_toNat_eq; rw [opcField, field_toNat, wordT_toNat]; omega

theorem protoField_wordT (opc : BitVec 8) (proto : BitVec 4) (volume : BitVec 8) (length : BitVec 12) :
    protoField (wordT opc proto volume length) = proto := by
  apply BitVec.eq_of_toNat_eq; rw [protoField, field_toNat, wordT_toNat]; omega

theorem volumeField_wordT (opc : BitVec 8) (proto : BitVec 4) (volume : BitVec 8) (length : BitVec 12) :
    volumeField (wordT opc proto volume length) = volume := by
  apply BitVec.eq_of_toNat_eq; rw [volumeField, field_toNat, wordT_toNat]; omega

theorem lengthField_wordT (opc : BitVec 8) (proto : BitVec 4) (volume : BitVec 8) (length : BitVec 12) :
    lengthField (wordT opc proto volume length) = length := by
  apply BitVec.eq_of_toNat_eq; rw [lengthField, field_toNat, wordT_toNat]; omega

end Sys2Proof
end

