-- ==== Sys2Proof/Laws/State.lean ====
section
/-! SUPPORT. Laws/State.lean: for every state update of the machine, what each field holds after it; no later proof unfolds a
record update. -/

namespace Sys2Proof.Machine


/-! ### `respond` -/

@[simp] theorem respond_cfg (s : State) (c : Status) (v : Word) : (respond s c v).cfg = s.cfg := rfl
@[simp] theorem respond_tx (s : State) (c : Status) (v : Word) : (respond s c v).tx = s.tx := rfl
@[simp] theorem respond_rx (s : State) (c : Status) (v : Word) : (respond s c v).rx = s.rx := rfl
@[simp] theorem respond_resetIn (s : State) (c : Status) (v : Word) : (respond s c v).resetIn = s.resetIn := rfl
@[simp] theorem respond_prims (s : State) (c : Status) (v : Word) : (respond s c v).prims = s.prims := rfl
@[simp] theorem respond_cmd (s : State) (c : Status) (v : Word) : (respond s c v).io.cmd = s.io.cmd := rfl
@[simp] theorem respond_hdi (s : State) (c : Status) (v : Word) : (respond s c v).io.hdi = s.io.hdi := rfl
@[simp] theorem respond_rsp (s : State) (c : Status) (v : Word) : (respond s c v).io.rsp = s.io.rsp ++ [c.word, v] := rfl
@[simp] theorem respond_hdo (s : State) (c : Status) (v : Word) : (respond s c v).io.hdo = s.io.hdo := rfl
@[simp] theorem respond_aout (s : State) (c : Status) (v : Word) : (respond s c v).io.aout = s.io.aout := rfl
@[simp] theorem respond_ain (s : State) (c : Status) (v : Word) : (respond s c v).io.ain = s.io.ain := rfl

/-! ### `pushHdo` -/

@[simp] theorem pushHdo_cfg (s : State) (b : List Byte) : (pushHdo s b).cfg = s.cfg := rfl
@[simp] theorem pushHdo_tx (s : State) (b : List Byte) : (pushHdo s b).tx = s.tx := rfl
@[simp] theorem pushHdo_rx (s : State) (b : List Byte) : (pushHdo s b).rx = s.rx := rfl
@[simp] theorem pushHdo_resetIn (s : State) (b : List Byte) : (pushHdo s b).resetIn = s.resetIn := rfl
@[simp] theorem pushHdo_prims (s : State) (b : List Byte) : (pushHdo s b).prims = s.prims := rfl
@[simp] theorem pushHdo_cmd (s : State) (b : List Byte) : (pushHdo s b).io.cmd = s.io.cmd := rfl
@[simp] theorem pushHdo_hdi (s : State) (b : List Byte) : (pushHdo s b).io.hdi = s.io.hdi := rfl
@[simp] theorem pushHdo_rsp (s : State) (b : List Byte) : (pushHdo s b).io.rsp = s.io.rsp := rfl
@[simp] theorem pushHdo_hdo (s : State) (b : List Byte) : (pushHdo s b).io.hdo = s.io.hdo ++ b := rfl
@[simp] theorem pushHdo_aout (s : State) (b : List Byte) : (pushHdo s b).io.aout = s.io.aout := rfl
@[simp] theorem pushHdo_ain (s : State) (b : List Byte) : (pushHdo s b).io.ain = s.io.ain := rfl

/-! ### `pushAout` -/

@[simp] theorem pushAout_cfg (s : State) (b : List Byte) : (pushAout s b).cfg = s.cfg := rfl
@[simp] theorem pushAout_tx (s : State) (b : List Byte) : (pushAout s b).tx = s.tx := rfl
@[simp] theorem pushAout_rx (s : State) (b : List Byte) : (pushAout s b).rx = s.rx := rfl
@[simp] theorem pushAout_resetIn (s : State) (b : List Byte) : (pushAout s b).resetIn = s.resetIn := rfl
@[simp] theorem pushAout_prims (s : State) (b : List Byte) : (pushAout s b).prims = s.prims := rfl
@[simp] theorem pushAout_cmd (s : State) (b : List Byte) : (pushAout s b).io.cmd = s.io.cmd := rfl
@[simp] theorem pushAout_hdi (s : State) (b : List Byte) : (pushAout s b).io.hdi = s.io.hdi := rfl
@[simp] theorem pushAout_rsp (s : State) (b : List Byte) : (pushAout s b).io.rsp = s.io.rsp := rfl
@[simp] theorem pushAout_hdo (s : State) (b : List Byte) : (pushAout s b).io.hdo = s.io.hdo := rfl
@[simp] theorem pushAout_aout (s : State) (b : List Byte) : (pushAout s b).io.aout = s.io.aout ++ b := rfl
@[simp] theorem pushAout_ain (s : State) (b : List Byte) : (pushAout s b).io.ain = s.io.ain := rfl

/-! ### `State.answered` -/

@[simp] theorem State.answered_cfg (s : State) (v : Word) : (s.answered v).cfg = s.cfg := rfl
@[simp] theorem State.answered_tx (s : State) (v : Word) : (s.answered v).tx = s.tx := rfl
@[simp] theorem State.answered_rx (s : State) (v : Word) : (s.answered v).rx = s.rx := rfl
@[simp] theorem State.answered_resetIn (s : State) (v : Word) : (s.answered v).resetIn = s.resetIn := rfl
@[simp] theorem State.answered_prims (s : State) (v : Word) : (s.answered v).prims = s.prims := rfl
@[simp] theorem State.answered_cmd (s : State) (v : Word) : (s.answered v).io.cmd = s.io.cmd := rfl
@[simp] theorem State.answered_hdi (s : State) (v : Word) : (s.answered v).io.hdi = s.io.hdi := rfl
@[simp] theorem State.answered_rsp (s : State) (v : Word) : (s.answered v).io.rsp = s.io.rsp ++ [0#32, v] := rfl
@[simp] theorem State.answered_hdo (s : State) (v : Word) : (s.answered v).io.hdo = s.io.hdo := rfl
@[simp] theorem State.answered_aout (s : State) (v : Word) : (s.answered v).io.aout = s.io.aout := rfl
@[simp] theorem State.answered_ain (s : State) (v : Word) : (s.answered v).io.ain = s.io.ain := rfl

/-! ### `State.refusedIllegal` -/

@[simp] theorem State.refusedIllegal_cfg (s : State) : (s.refusedIllegal).cfg = s.cfg := rfl
@[simp] theorem State.refusedIllegal_tx (s : State) : (s.refusedIllegal).tx = s.tx := rfl
@[simp] theorem State.refusedIllegal_rx (s : State) : (s.refusedIllegal).rx = s.rx := rfl
@[simp] theorem State.refusedIllegal_resetIn (s : State) : (s.refusedIllegal).resetIn = s.resetIn := rfl
@[simp] theorem State.refusedIllegal_prims (s : State) : (s.refusedIllegal).prims = s.prims := rfl
@[simp] theorem State.refusedIllegal_cmd (s : State) : (s.refusedIllegal).io.cmd = s.io.cmd := rfl
@[simp] theorem State.refusedIllegal_hdi (s : State) : (s.refusedIllegal).io.hdi = s.io.hdi := rfl
@[simp] theorem State.refusedIllegal_rsp (s : State) : (s.refusedIllegal).io.rsp = s.io.rsp ++ [1#32, 0#32] := rfl
@[simp] theorem State.refusedIllegal_hdo (s : State) : (s.refusedIllegal).io.hdo = s.io.hdo := rfl
@[simp] theorem State.refusedIllegal_aout (s : State) : (s.refusedIllegal).io.aout = s.io.aout := rfl
@[simp] theorem State.refusedIllegal_ain (s : State) : (s.refusedIllegal).io.ain = s.io.ain := rfl

/-! ### `State.answeredCfgFault` -/

@[simp] theorem State.answeredCfgFault_cfg (s : State) : (s.answeredCfgFault).cfg = s.cfg := rfl
@[simp] theorem State.answeredCfgFault_tx (s : State) : (s.answeredCfgFault).tx = s.tx := rfl
@[simp] theorem State.answeredCfgFault_rx (s : State) : (s.answeredCfgFault).rx = s.rx := rfl
@[simp] theorem State.answeredCfgFault_resetIn (s : State) : (s.answeredCfgFault).resetIn = s.resetIn := rfl
@[simp] theorem State.answeredCfgFault_prims (s : State) : (s.answeredCfgFault).prims = s.prims := rfl
@[simp] theorem State.answeredCfgFault_cmd (s : State) : (s.answeredCfgFault).io.cmd = s.io.cmd := rfl
@[simp] theorem State.answeredCfgFault_hdi (s : State) : (s.answeredCfgFault).io.hdi = s.io.hdi := rfl
@[simp] theorem State.answeredCfgFault_rsp (s : State) : (s.answeredCfgFault).io.rsp = s.io.rsp ++ [2#32, 0#32] := rfl
@[simp] theorem State.answeredCfgFault_hdo (s : State) : (s.answeredCfgFault).io.hdo = s.io.hdo := rfl
@[simp] theorem State.answeredCfgFault_aout (s : State) : (s.answeredCfgFault).io.aout = s.io.aout := rfl
@[simp] theorem State.answeredCfgFault_ain (s : State) : (s.answeredCfgFault).io.ain = s.io.ain := rfl

/-! ### The responses as updates -/

theorem respond_ok (s : State) (v : Word) : respond s .ok v = s.answered v := rfl
theorem respond_illegal (s : State) : respond s .illegal 0#32 = s.refusedIllegal := rfl
theorem respond_cfgFault (s : State) : respond s .cfgFault 0#32 = s.answeredCfgFault := rfl
theorem answer_eq (s : State) (v : Word) : answer s v = .next (s.answered v) := rfl

/-! ### `commitInit` -/

@[simp] theorem commitInit_protocolId (tx : TxState) (p : ProtoId) (vol len : Nat) (pl enc : List Byte) : (commitInit tx p vol len pl enc).protocolId = p := rfl
@[simp] theorem commitInit_len (tx : TxState) (p : ProtoId) (vol len : Nat) (pl enc : List Byte) : (commitInit tx p vol len pl enc).len = BitVec.ofNat 8 len := rfl
@[simp] theorem commitInit_volume (tx : TxState) (p : ProtoId) (vol len : Nat) (pl enc : List Byte) : (commitInit tx p vol len pl enc).volume = BitVec.ofNat 7 vol := rfl
@[simp] theorem commitInit_payload (tx : TxState) (p : ProtoId) (vol len : Nat) (pl enc : List Byte) : (commitInit tx p vol len pl enc).payload = overwrite tx.payload 0 pl := rfl
@[simp] theorem commitInit_enc (tx : TxState) (p : ProtoId) (vol len : Nat) (pl enc : List Byte) : (commitInit tx p vol len pl enc).enc = overwrite tx.enc 0 enc := rfl
@[simp] theorem commitInit_encLen (tx : TxState) (p : ProtoId) (vol len : Nat) (pl enc : List Byte) : (commitInit tx p vol len pl enc).encLen = BitVec.ofNat 10 enc.length := rfl
@[simp] theorem commitInit_groups (tx : TxState) (p : ProtoId) (vol len : Nat) (pl enc : List Byte) : (commitInit tx p vol len pl enc).groups = BitVec.ofNat 10 (ceilDiv enc.length (bytesPerGroup p)) := rfl
@[simp] theorem commitInit_unit (tx : TxState) (p : ProtoId) (vol len : Nat) (pl enc : List Byte) : (commitInit tx p vol len pl enc).unit = 0 := rfl
@[simp] theorem commitInit_hasData (tx : TxState) (p : ProtoId) (vol len : Nat) (pl enc : List Byte) : (commitInit tx p vol len pl enc).hasData = true := rfl
@[simp] theorem commitInit_out (tx : TxState) (p : ProtoId) (vol len : Nat) (pl enc : List Byte) : (commitInit tx p vol len pl enc).out = tx.out := rfl
@[simp] theorem commitInit_outCount (tx : TxState) (p : ProtoId) (vol len : Nat) (pl enc : List Byte) : (commitInit tx p vol len pl enc).outCount = 0 := rfl
@[simp] theorem commitInit_amp16Count (tx : TxState) (p : ProtoId) (vol len : Nat) (pl enc : List Byte) : (commitInit tx p vol len pl enc).amp16Count = 0 := rfl

/-! ### `advanceUnit` -/

@[simp] theorem advanceUnit_protocolId (tx : TxState) (smp : List I16) : (advanceUnit tx smp).protocolId = tx.protocolId := rfl
@[simp] theorem advanceUnit_len (tx : TxState) (smp : List I16) : (advanceUnit tx smp).len = tx.len := rfl
@[simp] theorem advanceUnit_volume (tx : TxState) (smp : List I16) : (advanceUnit tx smp).volume = tx.volume := rfl
@[simp] theorem advanceUnit_payload (tx : TxState) (smp : List I16) : (advanceUnit tx smp).payload = tx.payload := rfl
@[simp] theorem advanceUnit_enc (tx : TxState) (smp : List I16) : (advanceUnit tx smp).enc = tx.enc := rfl
@[simp] theorem advanceUnit_encLen (tx : TxState) (smp : List I16) : (advanceUnit tx smp).encLen = tx.encLen := rfl
@[simp] theorem advanceUnit_groups (tx : TxState) (smp : List I16) : (advanceUnit tx smp).groups = tx.groups := rfl
@[simp] theorem advanceUnit_unit (tx : TxState) (smp : List I16) : (advanceUnit tx smp).unit = tx.unit + 1 := rfl
@[simp] theorem advanceUnit_hasData (tx : TxState) (smp : List I16) : (advanceUnit tx smp).hasData = (if tx.unit.toNat + 1 = 1 + tx.groups.toNat then false else tx.hasData) := rfl
@[simp] theorem advanceUnit_out (tx : TxState) (smp : List I16) : (advanceUnit tx smp).out = overwrite tx.out 0 smp := rfl
@[simp] theorem advanceUnit_outCount (tx : TxState) (smp : List I16) : (advanceUnit tx smp).outCount = BitVec.ofNat 17 smp.length := rfl
@[simp] theorem advanceUnit_amp16Count (tx : TxState) (smp : List I16) : (advanceUnit tx smp).amp16Count = BitVec.ofNat 17 smp.length := rfl

/-! ### `analyze` -/

@[simp] theorem analyze_analyzing (m : List Mag) (rx : RxState) : (analyze m rx).analyzing = rx.analyzing := rfl
@[simp] theorem analyze_receiving (m : List Mag) (rx : RxState) : (analyze m rx).receiving = rx.receiving := rfl
@[simp] theorem analyze_framesToAnalyze (m : List Mag) (rx : RxState) : (analyze m rx).framesToAnalyze = rx.framesToAnalyze := rfl
@[simp] theorem analyze_framesLeftToAnalyze (m : List Mag) (rx : RxState) : (analyze m rx).framesLeftToAnalyze = rx.framesLeftToAnalyze := rfl
@[simp] theorem analyze_framesToRecord (m : List Mag) (rx : RxState) : (analyze m rx).framesToRecord = rx.framesToRecord := rfl
@[simp] theorem analyze_framesLeftToRecord (m : List Mag) (rx : RxState) : (analyze m rx).framesLeftToRecord = rx.framesLeftToRecord := rfl
@[simp] theorem analyze_spec (m : List Mag) (rx : RxState) : (analyze m rx).spec = m := rfl
@[simp] theorem analyze_specNew (m : List Mag) (rx : RxState) : (analyze m rx).specNew = true := rfl
@[simp] theorem analyze_histBuf (m : List Mag) (rx : RxState) : (analyze m rx).histBuf = rx.histBuf.set rx.histHead.toNat m := rfl
@[simp] theorem analyze_histHead (m : List Mag) (rx : RxState) : (analyze m rx).histHead = rx.histHead + 1 := rfl
@[simp] theorem analyze_frameBytes (m : List Mag) (rx : RxState) : (analyze m rx).frameBytes = rx.frameBytes := rfl
@[simp] theorem analyze_frameFill (m : List Mag) (rx : RxState) : (analyze m rx).frameFill = rx.frameFill := rfl
@[simp] theorem analyze_cand (m : List Mag) (rx : RxState) : (analyze m rx).cand = rx.cand := rfl
@[simp] theorem analyze_curProto (m : List Mag) (rx : RxState) : (analyze m rx).curProto = rx.curProto := rfl
@[simp] theorem analyze_accOn (m : List Mag) (rx : RxState) : (analyze m rx).accOn = rx.accOn := rfl
@[simp] theorem analyze_accNf (m : List Mag) (rx : RxState) : (analyze m rx).accNf = rx.accNf := rfl
@[simp] theorem analyze_enc (m : List Mag) (rx : RxState) : (analyze m rx).enc = rx.enc := rfl
@[simp] theorem analyze_recorded (m : List Mag) (rx : RxState) : (analyze m rx).recorded = rx.recorded := rfl
@[simp] theorem analyze_data (m : List Mag) (rx : RxState) : (analyze m rx).data = rx.data := rfl
@[simp] theorem analyze_dataLength (m : List Mag) (rx : RxState) : (analyze m rx).dataLength = rx.dataLength := rfl
@[simp] theorem analyze_protocolId (m : List Mag) (rx : RxState) : (analyze m rx).protocolId = rx.protocolId := rfl
@[simp] theorem analyze_rxNew (m : List Mag) (rx : RxState) : (analyze m rx).rxNew = rx.rxNew := rfl
@[simp] theorem analyze_corrected (m : List Mag) (rx : RxState) : (analyze m rx).corrected = rx.corrected := rfl
theorem analyze_histCount (m : List Mag) (rx : RxState) :
    (analyze m rx).histCount = if rx.histCount.toNat = Config.maxSpectrumHistory then rx.histCount else rx.histCount + 1 := rfl
theorem analyze_histSum (m : List Mag) (rx : RxState) :
    (analyze m rx).histSum =
      addSpectrum (if rx.histCount.toNat = Config.maxSpectrumHistory
        then evict rx.histSum (rx.histBuf.getD rx.histHead.toNat []) else rx.histSum) m := rfl

/-! ### `startReceiving` -/

@[simp] theorem startReceiving_analyzing (rx : RxState) (p : ProtoId) : (startReceiving rx p).analyzing = false := rfl
@[simp] theorem startReceiving_receiving (rx : RxState) (p : ProtoId) : (startReceiving rx p).receiving = true := rfl
@[simp] theorem startReceiving_framesToAnalyze (rx : RxState) (p : ProtoId) : (startReceiving rx p).framesToAnalyze = rx.framesToAnalyze := rfl
@[simp] theorem startReceiving_framesLeftToAnalyze (rx : RxState) (p : ProtoId) : (startReceiving rx p).framesLeftToAnalyze = rx.framesLeftToAnalyze := rfl
@[simp] theorem startReceiving_framesToRecord (rx : RxState) (p : ProtoId) : (startReceiving rx p).framesToRecord = BitVec.ofNat 11 (longestRecording p) := rfl
@[simp] theorem startReceiving_framesLeftToRecord (rx : RxState) (p : ProtoId) : (startReceiving rx p).framesLeftToRecord = BitVec.ofNat 11 (longestRecording p) := rfl
@[simp] theorem startReceiving_spec (rx : RxState) (p : ProtoId) : (startReceiving rx p).spec = rx.spec := rfl
@[simp] theorem startReceiving_specNew (rx : RxState) (p : ProtoId) : (startReceiving rx p).specNew = rx.specNew := rfl
@[simp] theorem startReceiving_histBuf (rx : RxState) (p : ProtoId) : (startReceiving rx p).histBuf = rx.histBuf := rfl
@[simp] theorem startReceiving_histHead (rx : RxState) (p : ProtoId) : (startReceiving rx p).histHead = rx.histHead := rfl
@[simp] theorem startReceiving_histCount (rx : RxState) (p : ProtoId) : (startReceiving rx p).histCount = rx.histCount := rfl
@[simp] theorem startReceiving_histSum (rx : RxState) (p : ProtoId) : (startReceiving rx p).histSum = rx.histSum := rfl
@[simp] theorem startReceiving_frameBytes (rx : RxState) (p : ProtoId) : (startReceiving rx p).frameBytes = rx.frameBytes := rfl
@[simp] theorem startReceiving_frameFill (rx : RxState) (p : ProtoId) : (startReceiving rx p).frameFill = rx.frameFill := rfl
@[simp] theorem startReceiving_cand (rx : RxState) (p : ProtoId) : (startReceiving rx p).cand = none := rfl
@[simp] theorem startReceiving_curProto (rx : RxState) (p : ProtoId) : (startReceiving rx p).curProto = p := rfl
@[simp] theorem startReceiving_accOn (rx : RxState) (p : ProtoId) : (startReceiving rx p).accOn = List.replicate Config.maxDataBits 0 := rfl
@[simp] theorem startReceiving_accNf (rx : RxState) (p : ProtoId) : (startReceiving rx p).accNf = List.replicate Config.maxDataBits 0 := rfl
@[simp] theorem startReceiving_enc (rx : RxState) (p : ProtoId) : (startReceiving rx p).enc = List.replicate Config.rxEncCap 0 := rfl
@[simp] theorem startReceiving_recorded (rx : RxState) (p : ProtoId) : (startReceiving rx p).recorded = [] := rfl
@[simp] theorem startReceiving_data (rx : RxState) (p : ProtoId) : (startReceiving rx p).data = rx.data := rfl
@[simp] theorem startReceiving_dataLength (rx : RxState) (p : ProtoId) : (startReceiving rx p).dataLength = rx.dataLength := rfl
@[simp] theorem startReceiving_protocolId (rx : RxState) (p : ProtoId) : (startReceiving rx p).protocolId = rx.protocolId := rfl
@[simp] theorem startReceiving_rxNew (rx : RxState) (p : ProtoId) : (startReceiving rx p).rxNew = rx.rxNew := rfl
@[simp] theorem startReceiving_corrected (rx : RxState) (p : ProtoId) : (startReceiving rx p).corrected = rx.corrected := rfl

/-! ### `recordFrame` -/

@[simp] theorem recordFrame_analyzing (x : List Word) (rx : RxState) : (recordFrame x rx).analyzing = rx.analyzing := rfl
@[simp] theorem recordFrame_receiving (x : List Word) (rx : RxState) : (recordFrame x rx).receiving = rx.receiving := rfl
@[simp] theorem recordFrame_framesToAnalyze (x : List Word) (rx : RxState) : (recordFrame x rx).framesToAnalyze = rx.framesToAnalyze := rfl
@[simp] theorem recordFrame_framesLeftToAnalyze (x : List Word) (rx : RxState) : (recordFrame x rx).framesLeftToAnalyze = rx.framesLeftToAnalyze := rfl
@[simp] theorem recordFrame_framesToRecord (x : List Word) (rx : RxState) : (recordFrame x rx).framesToRecord = rx.framesToRecord := rfl
@[simp] theorem recordFrame_framesLeftToRecord (x : List Word) (rx : RxState) : (recordFrame x rx).framesLeftToRecord = rx.framesLeftToRecord - 1 := rfl
@[simp] theorem recordFrame_spec (x : List Word) (rx : RxState) : (recordFrame x rx).spec = rx.spec := rfl
@[simp] theorem recordFrame_specNew (x : List Word) (rx : RxState) : (recordFrame x rx).specNew = rx.specNew := rfl
@[simp] theorem recordFrame_histBuf (x : List Word) (rx : RxState) : (recordFrame x rx).histBuf = rx.histBuf := rfl
@[simp] theorem recordFrame_histHead (x : List Word) (rx : RxState) : (recordFrame x rx).histHead = rx.histHead := rfl
@[simp] theorem recordFrame_histCount (x : List Word) (rx : RxState) : (recordFrame x rx).histCount = rx.histCount := rfl
@[simp] theorem recordFrame_histSum (x : List Word) (rx : RxState) : (recordFrame x rx).histSum = rx.histSum := rfl
@[simp] theorem recordFrame_frameBytes (x : List Word) (rx : RxState) : (recordFrame x rx).frameBytes = rx.frameBytes := rfl
@[simp] theorem recordFrame_frameFill (x : List Word) (rx : RxState) : (recordFrame x rx).frameFill = rx.frameFill := rfl
@[simp] theorem recordFrame_cand (x : List Word) (rx : RxState) : (recordFrame x rx).cand = rx.cand := rfl
@[simp] theorem recordFrame_curProto (x : List Word) (rx : RxState) : (recordFrame x rx).curProto = rx.curProto := rfl
@[simp] theorem recordFrame_accOn (x : List Word) (rx : RxState) : (recordFrame x rx).accOn = rx.accOn := rfl
@[simp] theorem recordFrame_accNf (x : List Word) (rx : RxState) : (recordFrame x rx).accNf = rx.accNf := rfl
@[simp] theorem recordFrame_enc (x : List Word) (rx : RxState) : (recordFrame x rx).enc = rx.enc := rfl
@[simp] theorem recordFrame_recorded (x : List Word) (rx : RxState) : (recordFrame x rx).recorded = rx.recorded ++ [x] := rfl
@[simp] theorem recordFrame_data (x : List Word) (rx : RxState) : (recordFrame x rx).data = rx.data := rfl
@[simp] theorem recordFrame_dataLength (x : List Word) (rx : RxState) : (recordFrame x rx).dataLength = rx.dataLength := rfl
@[simp] theorem recordFrame_protocolId (x : List Word) (rx : RxState) : (recordFrame x rx).protocolId = rx.protocolId := rfl
@[simp] theorem recordFrame_rxNew (x : List Word) (rx : RxState) : (recordFrame x rx).rxNew = rx.rxNew := rfl
@[simp] theorem recordFrame_corrected (x : List Word) (rx : RxState) : (recordFrame x rx).corrected = rx.corrected := rfl

/-! ### `decideGroup` -/

@[simp] theorem decideGroup_analyzing (rx : RxState) (p : ProtoId) (g : Nat) : (decideGroup rx p g).analyzing = rx.analyzing := rfl
@[simp] theorem decideGroup_receiving (rx : RxState) (p : ProtoId) (g : Nat) : (decideGroup rx p g).receiving = rx.receiving := rfl
@[simp] theorem decideGroup_framesToAnalyze (rx : RxState) (p : ProtoId) (g : Nat) : (decideGroup rx p g).framesToAnalyze = rx.framesToAnalyze := rfl
@[simp] theorem decideGroup_framesLeftToAnalyze (rx : RxState) (p : ProtoId) (g : Nat) : (decideGroup rx p g).framesLeftToAnalyze = rx.framesLeftToAnalyze := rfl
@[simp] theorem decideGroup_framesToRecord (rx : RxState) (p : ProtoId) (g : Nat) : (decideGroup rx p g).framesToRecord = rx.framesToRecord := rfl
@[simp] theorem decideGroup_framesLeftToRecord (rx : RxState) (p : ProtoId) (g : Nat) : (decideGroup rx p g).framesLeftToRecord = rx.framesLeftToRecord := rfl
@[simp] theorem decideGroup_spec (rx : RxState) (p : ProtoId) (g : Nat) : (decideGroup rx p g).spec = rx.spec := rfl
@[simp] theorem decideGroup_specNew (rx : RxState) (p : ProtoId) (g : Nat) : (decideGroup rx p g).specNew = rx.specNew := rfl
@[simp] theorem decideGroup_histBuf (rx : RxState) (p : ProtoId) (g : Nat) : (decideGroup rx p g).histBuf = rx.histBuf := rfl
@[simp] theorem decideGroup_histHead (rx : RxState) (p : ProtoId) (g : Nat) : (decideGroup rx p g).histHead = rx.histHead := rfl
@[simp] theorem decideGroup_histCount (rx : RxState) (p : ProtoId) (g : Nat) : (decideGroup rx p g).histCount = rx.histCount := rfl
@[simp] theorem decideGroup_histSum (rx : RxState) (p : ProtoId) (g : Nat) : (decideGroup rx p g).histSum = rx.histSum := rfl
@[simp] theorem decideGroup_frameBytes (rx : RxState) (p : ProtoId) (g : Nat) : (decideGroup rx p g).frameBytes = rx.frameBytes := rfl
@[simp] theorem decideGroup_frameFill (rx : RxState) (p : ProtoId) (g : Nat) : (decideGroup rx p g).frameFill = rx.frameFill := rfl
@[simp] theorem decideGroup_cand (rx : RxState) (p : ProtoId) (g : Nat) : (decideGroup rx p g).cand = rx.cand := rfl
@[simp] theorem decideGroup_curProto (rx : RxState) (p : ProtoId) (g : Nat) : (decideGroup rx p g).curProto = rx.curProto := rfl
@[simp] theorem decideGroup_accOn (rx : RxState) (p : ProtoId) (g : Nat) : (decideGroup rx p g).accOn = List.replicate Config.maxDataBits 0 := rfl
@[simp] theorem decideGroup_accNf (rx : RxState) (p : ProtoId) (g : Nat) : (decideGroup rx p g).accNf = List.replicate Config.maxDataBits 0 := rfl
@[simp] theorem decideGroup_recorded (rx : RxState) (p : ProtoId) (g : Nat) : (decideGroup rx p g).recorded = rx.recorded := rfl
@[simp] theorem decideGroup_data (rx : RxState) (p : ProtoId) (g : Nat) : (decideGroup rx p g).data = rx.data := rfl
@[simp] theorem decideGroup_dataLength (rx : RxState) (p : ProtoId) (g : Nat) : (decideGroup rx p g).dataLength = rx.dataLength := rfl
@[simp] theorem decideGroup_protocolId (rx : RxState) (p : ProtoId) (g : Nat) : (decideGroup rx p g).protocolId = rx.protocolId := rfl
@[simp] theorem decideGroup_rxNew (rx : RxState) (p : ProtoId) (g : Nat) : (decideGroup rx p g).rxNew = rx.rxNew := rfl
@[simp] theorem decideGroup_corrected (rx : RxState) (p : ProtoId) (g : Nat) : (decideGroup rx p g).corrected = rx.corrected := rfl
theorem decideGroup_enc (rx : RxState) (p : ProtoId) (g : Nat) :
    (decideGroup rx p g).enc =
      overwrite rx.enc (g * bytesPerGroup p) ((List.range (bytesPerGroup p)).map (byteOfBits (groupDecision rx))) := rfl

/-! ### `surface` -/

@[simp] theorem surface_analyzing (rx : RxState) (d : Decoded) : (surface rx d).analyzing = rx.analyzing := rfl
@[simp] theorem surface_receiving (rx : RxState) (d : Decoded) : (surface rx d).receiving = rx.receiving := rfl
@[simp] theorem surface_framesToAnalyze (rx : RxState) (d : Decoded) : (surface rx d).framesToAnalyze = rx.framesToAnalyze := rfl
@[simp] theorem surface_framesLeftToAnalyze (rx : RxState) (d : Decoded) : (surface rx d).framesLeftToAnalyze = rx.framesLeftToAnalyze := rfl
@[simp] theorem surface_framesToRecord (rx : RxState) (d : Decoded) : (surface rx d).framesToRecord = rx.framesToRecord := rfl
@[simp] theorem surface_framesLeftToRecord (rx : RxState) (d : Decoded) : (surface rx d).framesLeftToRecord = rx.framesLeftToRecord := rfl
@[simp] theorem surface_spec (rx : RxState) (d : Decoded) : (surface rx d).spec = rx.spec := rfl
@[simp] theorem surface_specNew (rx : RxState) (d : Decoded) : (surface rx d).specNew = rx.specNew := rfl
@[simp] theorem surface_histBuf (rx : RxState) (d : Decoded) : (surface rx d).histBuf = rx.histBuf := rfl
@[simp] theorem surface_histHead (rx : RxState) (d : Decoded) : (surface rx d).histHead = rx.histHead := rfl
@[simp] theorem surface_histCount (rx : RxState) (d : Decoded) : (surface rx d).histCount = rx.histCount := rfl
@[simp] theorem surface_histSum (rx : RxState) (d : Decoded) : (surface rx d).histSum = rx.histSum := rfl
@[simp] theorem surface_frameBytes (rx : RxState) (d : Decoded) : (surface rx d).frameBytes = rx.frameBytes := rfl
@[simp] theorem surface_frameFill (rx : RxState) (d : Decoded) : (surface rx d).frameFill = rx.frameFill := rfl
@[simp] theorem surface_cand (rx : RxState) (d : Decoded) : (surface rx d).cand = rx.cand := rfl
@[simp] theorem surface_curProto (rx : RxState) (d : Decoded) : (surface rx d).curProto = rx.curProto := rfl
@[simp] theorem surface_accOn (rx : RxState) (d : Decoded) : (surface rx d).accOn = rx.accOn := rfl
@[simp] theorem surface_accNf (rx : RxState) (d : Decoded) : (surface rx d).accNf = rx.accNf := rfl
@[simp] theorem surface_enc (rx : RxState) (d : Decoded) : (surface rx d).enc = rx.enc := rfl
@[simp] theorem surface_recorded (rx : RxState) (d : Decoded) : (surface rx d).recorded = rx.recorded := rfl
@[simp] theorem surface_data (rx : RxState) (d : Decoded) : (surface rx d).data = overwrite rx.data 0 d.pl := rfl
@[simp] theorem surface_dataLength (rx : RxState) (d : Decoded) : (surface rx d).dataLength = BitVec.ofNat 9 d.len := rfl
@[simp] theorem surface_protocolId (rx : RxState) (d : Decoded) : (surface rx d).protocolId = rx.curProto := rfl
@[simp] theorem surface_rxNew (rx : RxState) (d : Decoded) : (surface rx d).rxNew = true := rfl
@[simp] theorem surface_corrected (rx : RxState) (d : Decoded) : (surface rx d).corrected = d.corrected := rfl

/-! ### `returnToAnalyzing` -/

@[simp] theorem returnToAnalyzing_analyzing (rx : RxState) : (returnToAnalyzing rx).analyzing = true := rfl
@[simp] theorem returnToAnalyzing_receiving (rx : RxState) : (returnToAnalyzing rx).receiving = false := rfl
@[simp] theorem returnToAnalyzing_framesToAnalyze (rx : RxState) : (returnToAnalyzing rx).framesToAnalyze = rx.framesToAnalyze := rfl
@[simp] theorem returnToAnalyzing_framesLeftToAnalyze (rx : RxState) : (returnToAnalyzing rx).framesLeftToAnalyze = rx.framesToAnalyze := rfl
@[simp] theorem returnToAnalyzing_framesToRecord (rx : RxState) : (returnToAnalyzing rx).framesToRecord = 0 := rfl
@[simp] theorem returnToAnalyzing_framesLeftToRecord (rx : RxState) : (returnToAnalyzing rx).framesLeftToRecord = 0 := rfl
@[simp] theorem returnToAnalyzing_spec (rx : RxState) : (returnToAnalyzing rx).spec = rx.spec := rfl
@[simp] theorem returnToAnalyzing_specNew (rx : RxState) : (returnToAnalyzing rx).specNew = rx.specNew := rfl
@[simp] theorem returnToAnalyzing_histBuf (rx : RxState) : (returnToAnalyzing rx).histBuf = rx.histBuf := rfl
@[simp] theorem returnToAnalyzing_histHead (rx : RxState) : (returnToAnalyzing rx).histHead = rx.histHead := rfl
@[simp] theorem returnToAnalyzing_histCount (rx : RxState) : (returnToAnalyzing rx).histCount = rx.histCount := rfl
@[simp] theorem returnToAnalyzing_histSum (rx : RxState) : (returnToAnalyzing rx).histSum = rx.histSum := rfl
@[simp] theorem returnToAnalyzing_frameBytes (rx : RxState) : (returnToAnalyzing rx).frameBytes = rx.frameBytes := rfl
@[simp] theorem returnToAnalyzing_frameFill (rx : RxState) : (returnToAnalyzing rx).frameFill = rx.frameFill := rfl
@[simp] theorem returnToAnalyzing_cand (rx : RxState) : (returnToAnalyzing rx).cand = none := rfl
@[simp] theorem returnToAnalyzing_curProto (rx : RxState) : (returnToAnalyzing rx).curProto = rx.curProto := rfl
@[simp] theorem returnToAnalyzing_accOn (rx : RxState) : (returnToAnalyzing rx).accOn = rx.accOn := rfl
@[simp] theorem returnToAnalyzing_accNf (rx : RxState) : (returnToAnalyzing rx).accNf = rx.accNf := rfl
@[simp] theorem returnToAnalyzing_enc (rx : RxState) : (returnToAnalyzing rx).enc = rx.enc := rfl
@[simp] theorem returnToAnalyzing_recorded (rx : RxState) : (returnToAnalyzing rx).recorded = rx.recorded := rfl
@[simp] theorem returnToAnalyzing_data (rx : RxState) : (returnToAnalyzing rx).data = rx.data := rfl
@[simp] theorem returnToAnalyzing_dataLength (rx : RxState) : (returnToAnalyzing rx).dataLength = rx.dataLength := rfl
@[simp] theorem returnToAnalyzing_protocolId (rx : RxState) : (returnToAnalyzing rx).protocolId = rx.protocolId := rfl
@[simp] theorem returnToAnalyzing_rxNew (rx : RxState) : (returnToAnalyzing rx).rxNew = rx.rxNew := rfl
@[simp] theorem returnToAnalyzing_corrected (rx : RxState) : (returnToAnalyzing rx).corrected = rx.corrected := rfl

end Sys2Proof.Machine
end

