-- ==== Sys2Proof/Laws/Ops.lean ====
section
/-! SUPPORT. Laws/Ops.lean: for each shared operation of Machine/Ops.lean, Operands.lean and Fetch.lean, what it can do, said
once. -/

namespace Sys2Proof.Machine

/-! ### The `CFGFAULT` gate and the responses -/

@[simp] theorem whenConfigured_of_legal {s : State} (h : s.cfg.cfgFault = false) (body : Result) :
    whenConfigured s body = body := by
  simp [whenConfigured, h]

@[simp] theorem whenConfigured_of_fault {s : State} (h : s.cfg.cfgFault = true) (body : Result) :
    whenConfigured s body = .next s.answeredCfgFault := by
  simp [whenConfigured, h, respond_cfgFault]

/-- Everything a gated command can answer when it answers a next state. -/
theorem whenConfigured_next {s t : State} {body : Result} (h : whenConfigured s body = .next t) :
    (s.cfg.cfgFault = true ∧ t = s.answeredCfgFault) ∨ (s.cfg.cfgFault = false ∧ body = .next t) := by
  cases hc : s.cfg.cfgFault
  · right; simpa [hc] using h
  · left; rw [whenConfigured_of_fault hc] at h; injection h with h; exact ⟨rfl, h.symm⟩

/-- Everything the refusal of an illegal word can answer. -/
theorem refuseIllegal_eq (s : State) :
    refuseIllegal s = .next (if s.cfg.cfgFault then s.answeredCfgFault else s.refusedIllegal) := by
  cases hc : s.cfg.cfgFault <;> simp [refuseIllegal, hc, respond_illegal]

/-! ### Streams -/

theorem popBytes_eq_some_iff {hdi pl rest : List Byte} {n : Nat} :
    popBytes hdi n = some (pl, rest) ↔ n ≤ hdi.length ∧ pl = hdi.take n ∧ rest = hdi.drop n := by
  unfold popBytes
  split <;> simp_all [eq_comm]

theorem popBytes_eq_none_iff {hdi : List Byte} {n : Nat} : popBytes hdi n = none ↔ hdi.length < n := by
  unfold popBytes
  split <;> simp_all

@[simp] theorem pullBytes_nil (max : Nat) : pullBytes [] max = ([], []) := rfl

theorem pullBytes_cons_of_le {chunk : List Byte} {max : Nat} (h : chunk.length ≤ max) (later : List (List Byte)) :
    pullBytes (chunk :: later) max = (chunk, later) := by
  simp [pullBytes, h, List.take_of_length_le h]

theorem pullBytes_cons_of_lt {chunk : List Byte} {max : Nat} (h : max < chunk.length) (later : List (List Byte)) :
    pullBytes (chunk :: later) max = (chunk.take max, chunk.drop max :: later) := by
  simp [pullBytes, Nat.not_le.mpr h]

theorem takeCommand_eq_none_iff {s : State} : takeCommand s = none ↔ s.io.cmd = [] := by
  cases h : s.io.cmd <;> simp [takeCommand, h]

theorem takeCommand_eq_some {s : State} {w : Word} {rest : List Word} (h : s.io.cmd = w :: rest) :
    takeCommand s = some (w, { s with io := { s.io with cmd := rest } }) := by
  simp [takeCommand, h]

/-! ### Buffers -/

theorem overwrite_length {α : Type} (buf : List α) (off : Nat) (data : List α) (h : off + data.length ≤ buf.length) :
    (overwrite buf off data).length = buf.length := by
  simp [overwrite]; omega

theorem overwrite_getElem?_before {α : Type} (buf : List α) (off : Nat) (data : List α) {i : Nat} (hi : i < off)
    (h : off ≤ buf.length) : (overwrite buf off data)[i]? = buf[i]? := by
  rw [overwrite, List.getElem?_append_left (by simp; omega), List.getElem?_take_of_lt hi]

theorem overwrite_getElem?_inside {α : Type} (buf : List α) (off : Nat) (data : List α) {i : Nat} (hi : i < data.length)
    (h : off ≤ buf.length) : (overwrite buf off data)[off + i]? = data[i]? := by
  have : (buf.take off).length = off := by simp [h]
  rw [overwrite, List.getElem?_append_right (by omega), this, List.getElem?_append_left (by omega)]
  simp

theorem overwrite_getElem?_after {α : Type} (buf : List α) (off : Nat) (data : List α) {i : Nat}
    (hi : off + data.length ≤ i) (h : off ≤ buf.length) : (overwrite buf off data)[i]? = buf[i]? := by
  have hl : (buf.take off).length = off := by simp [h]
  rw [overwrite, List.getElem?_append_right (by omega), hl, List.getElem?_append_right (by omega), List.getElem?_drop]
  congr 1; omega

/-! ### Byte and sample forms -/

@[simp] theorem le16_length (v : BitVec 16) : (le16 v).length = 2 := rfl

@[simp] theorem le32_length (v : Word) : (le32 v).length = 4 := rfl

theorem fromLe_lt (bytes : List Byte) : fromLe bytes < 256 ^ bytes.length := by
  induction bytes with
  | nil => simp [fromLe]
  | cons b bs ih =>
    simp only [fromLe, List.length_cons, pow_succ]
    have := b.isLt
    omega

theorem outputSample_length (n : Nat) (v : I16) : (outputSample n v).length = if n = 2 then 2 else 4 := by
  unfold outputSample
  split <;> rfl

theorem outputBytes_length (n : Nat) (smp : List I16) :
    (outputBytes n smp).length = smp.length * if n = 2 then 2 else 4 := by
  induction smp with
  | nil => simp [outputBytes]
  | cons v vs ih =>
    simp only [outputBytes, List.flatMap_cons, List.length_append, List.length_cons] at ih ⊢
    rw [ih, outputSample_length]; ring

@[simp] theorem frameWords_length (ssIn n : Nat) (frame : List Byte) : (frameWords ssIn n frame).length = n := by
  simp [frameWords]

end Sys2Proof.Machine
end

