-- ==== Sys2Proof/Laws/PerInstr.lean ====
section
/-! SUPPORT. Laws/PerInstr.lean: the family `EncodedFormat`, a statement per command about its encoding, with one lemma per
constructor (R80 to R84): the word of a command carries an opcode of the opcode map, its format's reserved field is zero, and
the data phase the word announces is the command's. -/

namespace Sys2Proof.Laws.EncodedFormat

/-- The command's word is laid out in the format its opcode selects, and announces its data phase. -/
def Statement (i : Instr) : Prop :=
  match formatOf (opcField (encode i)) with
  | none => False
  | some .n => zeroFieldN (encode i) = 0 ∧ i.dataPhase = 0
  | some .i => zeroFieldI (encode i) = 0 ∧ i.dataPhase = 0
  | some .t => i.dataPhase = (lengthField (encode i)).toNat

theorem rdreg (idx : BitVec 8) : Statement (.rdreg idx) := by
  simp [Statement, encode, formatOf, Instr.dataPhase, opcField_wordI, zeroFieldI_wordI]

theorem catlen : Statement .catlen := by
  simp [Statement, encode, formatOf, Instr.dataPhase, opcField_wordN, zeroFieldN_wordN]

theorem catdef : Statement .catdef := by
  simp [Statement, encode, formatOf, Instr.dataPhase, opcField_wordN, zeroFieldN_wordN]

theorem catget (idx : BitVec 8) : Statement (.catget idx) := by
  simp [Statement, encode, formatOf, Instr.dataPhase, opcField_wordI, zeroFieldI_wordI]

theorem catname (idx sub : BitVec 8) : Statement (.catname idx sub) := by
  simp [Statement, encode, formatOf, Instr.dataPhase, opcField_wordI, zeroFieldI_wordI]

theorem txinit (proto : BitVec 4) (volume : BitVec 8) (length : BitVec 12) : Statement (.txinit proto volume length) := by
  simp [Statement, encode, formatOf, Instr.dataPhase, opcField_wordT, lengthField_wordT]

theorem txsend : Statement .txsend := by
  simp [Statement, encode, formatOf, Instr.dataPhase, opcField_wordN, zeroFieldN_wordN]

theorem txhas : Statement .txhas := by
  simp [Statement, encode, formatOf, Instr.dataPhase, opcField_wordN, zeroFieldN_wordN]

theorem txtake16 : Statement .txtake16 := by
  simp [Statement, encode, formatOf, Instr.dataPhase, opcField_wordN, zeroFieldN_wordN]

theorem rxrecv : Statement .rxrecv := by
  simp [Statement, encode, formatOf, Instr.dataPhase, opcField_wordN, zeroFieldN_wordN]

theorem rxisrecv : Statement .rxisrecv := by
  simp [Statement, encode, formatOf, Instr.dataPhase, opcField_wordN, zeroFieldN_wordN]

theorem rxisana : Statement .rxisana := by
  simp [Statement, encode, formatOf, Instr.dataPhase, opcField_wordN, zeroFieldN_wordN]

theorem rxftr : Statement .rxftr := by
  simp [Statement, encode, formatOf, Instr.dataPhase, opcField_wordN, zeroFieldN_wordN]

theorem rxfltr : Statement .rxfltr := by
  simp [Statement, encode, formatOf, Instr.dataPhase, opcField_wordN, zeroFieldN_wordN]

theorem rxfta : Statement .rxfta := by
  simp [Statement, encode, formatOf, Instr.dataPhase, opcField_wordN, zeroFieldN_wordN]

theorem rxflta : Statement .rxflta := by
  simp [Statement, encode, formatOf, Instr.dataPhase, opcField_wordN, zeroFieldN_wordN]

theorem rxtake : Statement .rxtake := by
  simp [Statement, encode, formatOf, Instr.dataPhase, opcField_wordN, zeroFieldN_wordN]

theorem rxproto : Statement .rxproto := by
  simp [Statement, encode, formatOf, Instr.dataPhase, opcField_wordN, zeroFieldN_wordN]

theorem rxprotoid : Statement .rxprotoid := by
  simp [Statement, encode, formatOf, Instr.dataPhase, opcField_wordN, zeroFieldN_wordN]

theorem rxspec : Statement .rxspec := by
  simp [Statement, encode, formatOf, Instr.dataPhase, opcField_wordN, zeroFieldN_wordN]

end Sys2Proof.Laws.EncodedFormat
end

