-- ==== Sys2Proof/Tests/Slice0.lean ====
section
/-! SUPPORT. Tests/Slice0.lean: the author's tests. Expected values are those of the spec's rules and of 95_test_vectors.md; the
last part shows, for each statement with hypotheses, an input that meets them. -/

namespace Sys2Proof.Tests

open Sys2Proof Sys2Proof.Machine

/-! ## Well-formedness (the operand constraints of the opcode map) -/

theorem test_wf_refuses_rdreg_15 : Instr.wellFormed (.rdreg 15) = false := by decide
theorem test_wf_accepts_rdreg_14 : Instr.wellFormed (.rdreg 14) = true := by decide
theorem test_wf_refuses_catget_6 : Instr.wellFormed (.catget 6) = false := by decide
theorem test_wf_refuses_catname_6 : Instr.wellFormed (.catname 6 0) = false := by decide
theorem test_wf_refuses_catname_sub_4 : Instr.wellFormed (.catname 0 4) = false := by decide
theorem test_wf_accepts_catname_5_3 : Instr.wellFormed (.catname 5 3) = true := by decide

/-! ## Decoding, each word written out from 30_encoding.md -/

theorem test_decode_rdreg : decode 0b00000001_00000000_00000000_00001110#32 = .ok (.rdreg 14) := by decide
theorem test_decode_catlen : decode 0b00010000_00000000_00000000_00000000#32 = .ok .catlen := by decide
theorem test_decode_catdef : decode 0b00010001_00000000_00000000_00000000#32 = .ok .catdef := by decide
theorem test_decode_catget : decode 0b00010010_00000000_00000000_00000011#32 = .ok (.catget 3) := by decide
theorem test_decode_catname : decode 0b00010011_00000000_00000011_00000101#32 = .ok (.catname 5 3) := by decide
theorem test_decode_txinit : decode 0b00100000_0101_01001011_000010001100#32 = .ok (.txinit 5 75 140) := by decide
theorem test_decode_txsend : decode 0b00100001_00000000_00000000_00000000#32 = .ok .txsend := by decide
theorem test_decode_txhas : decode 0b00100010_00000000_00000000_00000000#32 = .ok .txhas := by decide
theorem test_decode_txtake16 : decode 0b00100011_00000000_00000000_00000000#32 = .ok .txtake16 := by decide
theorem test_decode_rxrecv : decode 0b00110000_00000000_00000000_00000000#32 = .ok .rxrecv := by decide
theorem test_decode_rxisrecv : decode 0b00110001_00000000_00000000_00000000#32 = .ok .rxisrecv := by decide
theorem test_decode_rxisana : decode 0b00110010_00000000_00000000_00000000#32 = .ok .rxisana := by decide
theorem test_decode_rxftr : decode 0b00110011_00000000_00000000_00000000#32 = .ok .rxftr := by decide
theorem test_decode_rxfltr : decode 0b00110100_00000000_00000000_00000000#32 = .ok .rxfltr := by decide
theorem test_decode_rxfta : decode 0b00110101_00000000_00000000_00000000#32 = .ok .rxfta := by decide
theorem test_decode_rxflta : decode 0b00110110_00000000_00000000_00000000#32 = .ok .rxflta := by decide
theorem test_decode_rxtake : decode 0b00110111_00000000_00000000_00000000#32 = .ok .rxtake := by decide
theorem test_decode_rxproto : decode 0b00111000_00000000_00000000_00000000#32 = .ok .rxproto := by decide
theorem test_decode_rxprotoid : decode 0b00111001_00000000_00000000_00000000#32 = .ok .rxprotoid := by decide
theorem test_decode_rxspec : decode 0b00111010_00000000_00000000_00000000#32 = .ok .rxspec := by decide

/-- T-ENC-2 to T-ENC-6, T-ENC-8 to T-ENC-10, T-ENC-12, T-ENC-14, T-ENC-18. -/
theorem test_decode_refuses :
    decode 0x10000001 = .error .reservedBitsN ∧ decode 0x00000000 = .error .unknownOpcode ∧
    decode 0xFFFFFFFF = .error .unknownOpcode ∧ decode 0x02000000 = .error .unknownOpcode ∧
    decode 0x3B000000 = .error .unknownOpcode ∧ decode 0x0100000F = .error .operandConstraint ∧
    decode 0x01000100 = .error .operandConstraint ∧ decode 0x01010000 = .error .reservedBitsI ∧
    decode 0x12000006 = .error .operandConstraint ∧ decode 0x13000400 = .error .operandConstraint ∧
    decode 0x21800000 = .error .reservedBitsN := by decide

/-- T-ENC-16, and the table word of the host. -/
theorem test_decode_txinit_all_ones : decodeTableWord 32 0x20FFFFFF = some (.txinit 15 255 4095) := by decide

/-! ## One step each -/

/-- One sample per frame: `L = 1`, one bin, `FB = 2` (legal by R251). -/
def tinyStraps : Config.Straps := { srIn := 1, srOut := 1, spf := 1, ssIn := 2, ssOut := 2 }

/-- The smallest frame with protocols 0 to 2 usable at equal rates: `L = 176`, 89 bins. -/
def smallStraps : Config.Straps := { srIn := 48000, srOut := 48000, spf := 176, ssIn := 2, ssOut := 2 }

/-- T-CFG: illegal by R251 (f). -/
def illegalStraps : Config.Straps := { srIn := 48000, srOut := 44100, spf := 1024, ssIn := 2, ssOut := 2 }

/-- The bindings of the spec's test vectors. -/
def testPrims : Config.Primitives := { spectrum := .specId, ecc := .rs3 }

def tiny : State := State.afterReset testPrims tinyStraps
def small : State := State.afterReset testPrims smallStraps
def faulty : State := State.afterReset testPrims illegalStraps

/-- The words a command puts on `RSP`. -/
def said (r : Result) : Option (List Word) :=
  match r with
  | .next t => some t.io.rsp
  | .fault _ => none
  | .refused _ => none

/-- What a command puts on `HDO`. -/
def handed (r : Result) : Option (List Byte) :=
  match r with
  | .next t => some t.io.hdo
  | .fault _ => none
  | .refused _ => none

theorem test_rdreg_status : said (exec (.rdreg 14) State.reset) = some [0, 2] := by decide
theorem test_rdreg_hzPerBin : said (exec (.rdreg 5) State.reset) = some [0, 0x002EE000] := by decide
theorem test_catlen : said (exec .catlen State.reset) = some [0, 6] := by decide
theorem test_catdef : said (exec .catdef State.reset) = some [0, 1] := by decide
theorem test_catget_3 : said (exec (.catget 3) State.reset) = some [0, 0x00309140] := by decide
theorem test_catget_6 : said (exec (.catget 6) State.reset) = some [1, 0] := by decide
theorem test_catname_5_0 : said (exec (.catname 5 0) State.reset) = some [0, 0x205D555B] := by decide
theorem test_catname_5_2 : said (exec (.catname 5 2) State.reset) = some [0, 0x00747365] := by decide
theorem test_txinit_length_0 : said (exec (.txinit 2 50 0) State.reset) = some [0, 0] := by decide
theorem test_txsend_exhausted : said (exec .txsend State.reset) = some [0, 0] := by decide
theorem test_txhas_after_reset : said (exec .txhas State.reset) = some [0, 0] := by decide
theorem test_rxisrecv_after_reset : said (exec .rxisrecv State.reset) = some [0, 0] := by decide
theorem test_rxisana_after_reset : said (exec .rxisana State.reset) = some [0, 1] := by decide
theorem test_rxftr_after_reset : said (exec .rxftr State.reset) = some [0, 0] := by decide
theorem test_rxfltr_after_reset : said (exec .rxfltr State.reset) = some [0, 0] := by decide
theorem test_rxfta_after_reset : said (exec .rxfta State.reset) = some [0, 8] := by decide
theorem test_rxflta_after_reset : said (exec .rxflta State.reset) = some [0, 8] := by decide
theorem test_rxproto_after_reset : said (exec .rxproto State.reset) = some [0, 0x00306028] := by decide
theorem test_rxprotoid_after_reset : said (exec .rxprotoid State.reset) = some [0, 1] := by decide
theorem test_rxspec_after_reset : said (exec .rxspec State.reset) = some [0, 0] := by decide
theorem test_rxtake_after_reset : said (exec .rxtake State.reset) = some [0, 0] := by decide
theorem test_txtake16_after_reset : said (exec .txtake16 State.reset) = some [0, 0] := by decide

/-- R140's example: the payload `61` with protocol 2 at volume 50. -/
def withPayload : State := { small with io := { small.io with hdi := [0x61, 0x62] } }

theorem test_txinit_commits : said (exec (.txinit 2 50 1) withPayload) = some [0, 1] := by decide

theorem test_txinit_encodes :
    (match exec (.txinit 2 50 1) withPayload with
      | .next t => some (t.tx.enc.take 7, t.tx.encLen, t.tx.groups, t.tx.hasData, t.io.hdi)
      | .fault _ => none
      | .refused _ => none) = some ([0x01, 0x61, 0x00, 0xB1, 0xC4, 0x15, 0], 6, 2, true, [0x62]) := by decide

/-- A unit of `L = 1` sample per frame with one data group left. -/
def sending : State :=
  { tiny with tx := { tiny.tx with hasData := true, groups := 2, unit := 2, protocolId := 2, volume := 50 } }

theorem test_txsend_last_unit :
    (match exec .txsend sending with
      | .next t => some (t.io.rsp, t.io.aout, t.tx.unit, t.tx.hasData, t.tx.amp16Count)
      | .fault _ => none
      | .refused _ => none) = some ([0, 6], [0, 0, 0, 0, 0, 0], 3, false, 3) := by decide

/-- R156, R68: samples 941 and -941, low byte first. -/
theorem test_txtake16_bytes :
    handed (exec .txtake16 { tiny with tx := { tiny.tx with out := [941, -941, 5], outCount := 2, amp16Count := 2 } }) =
      some [0xAD, 0x03, 0x53, 0xFC] := by decide

theorem test_rxtake_bytes :
    handed (exec .rxtake { tiny with rx := { tiny.rx with data := [0x61, 0x62], dataLength := 1, rxNew := true } }) =
      some [0x61] := by decide

/-- R66: a magnitude on `HDO`, low byte first. -/
theorem test_rxspec_bytes :
    handed (exec .rxspec { tiny with rx := { tiny.rx with spec := [0x3F000001], specNew := true } }) =
      some [0x01, 0x00, 0x00, 0x3F] := by decide

/-- R67, R152: the frame `00 40` is the sample 16384, float view `0x3F000000`; the frame is complete and analyzed. -/
theorem test_rxrecv_whole_frame :
    (match exec .rxrecv { tiny with io := { tiny.io with ain := [[0x00, 0x40, 0x07]] } } with
      | .next t => some (t.rx.spec, t.rx.specNew, t.rx.frameFill, t.io.ain)
      | .fault _ => none
      | .refused _ => none) = some ([0x3F000000], true, 0, [[0x07]]) := by decide

/-- R170: a short pull only fills the frame. -/
theorem test_rxrecv_partial_frame :
    (match exec .rxrecv { tiny with io := { tiny.io with ain := [[0x05]] } } with
      | .next t => some (t.rx.frameBytes, t.rx.frameFill, t.rx.specNew)
      | .fault _ => none
      | .refused _ => none) = some ([0x05, 0x00], 1, false) := by decide

/-! ## Primitives against the spec's worked values -/

/-- R150's sample values and a tie. -/
theorem test_sine_samples :
    sine 1 1024 = 201 ∧ sine 64 1024 = 12539 ∧ sine 128 1024 = 23170 ∧ sine 40 1024 = 7962 ∧ sine 1 12 = 16384 ∧
      sine 7 12 = -16384 := by decide

/-- R151's example: `W = 45190` and `-45190` at protocol 2, volume 50. -/
theorem test_tone_sample_truncates : toneSample 2 50 45190 = 941 ∧ toneSample 2 50 (-45190) = -941 := by decide

/-- R152's examples. -/
theorem test_float_view :
    i16ToF32 16384 = 0x3F000000 ∧ i16ToF32 (-32768) = 0xBF800000 ∧ i16ToF32 1 = 0x38000000 ∧ i16ToF32 941 = 0x3CEB4000 := by
  decide

/-- 1, -1/2 and the least subnormal (R152's layout). -/
theorem test_float_values :
    f32Value 0x3F800000 = 1 ∧ f32Value 0xBF000000 = -1 / 2 ∧ f32Value 0x00000001 = 1 / 2 ^ 149 := by
  have e : f32Exponent 0x3F800000 = 127 ∧ f32Exponent 0xBF000000 = 126 ∧ f32Exponent 0x00000001 = 0 := by decide
  have f : f32Fraction 0x3F800000 = 0 ∧ f32Fraction 0xBF000000 = 0 ∧ f32Fraction 0x00000001 = 1 := by decide
  have g : (0x3F800000 : Word).getLsbD 31 = false ∧ (0xBF000000 : Word).getLsbD 31 = true ∧
    (0x00000001 : Word).getLsbD 31 = false := by decide
  simp only [f32Value, e, f, g]
  norm_num

/-- R135: an infinity or a NaN among the samples gives the all-zero spectrum. -/
theorem test_dftmag_of_non_finite : IsDftMag 2 [0x7F800000, 0x3F800000] [0, 0] := by
  have h : f32Finite 0x7F800000 = false := by decide
  refine ⟨rfl, fun _ => by decide, fun hf => ?_⟩
  have := hf 0 (by decide)
  rw [show ([0x7F800000, 0x3F800000] : List Word).getD 0 0 = 0x7F800000 from rfl, h] at this
  cases this

/-- R122's examples. -/
theorem test_fec_decode :
    fecDecode rs3 [0x01, 0x61, 0x00, 0xB1, 0xC4, 0x15, 0x00] 3 = some { pl := [0x61], len := 1, corrected := false } ∧
    fecDecode rs3 [0x01, 0x60, 0x00, 0xB1, 0xC4, 0x15, 0x00] 3 = some { pl := [0x61], len := 1, corrected := true } ∧
    fecDecode rs3 [0x01, 0x60, 0x00, 0xB1, 0xC4, 0x14, 0x00] 3 = none := by decide

/-- R108's values. -/
theorem test_marker_words :
    markerWord 0 = 0xF055 ∧ markerWord 1 = 0xE155 ∧ markerWord 2 = 0xD255 ∧ markerWord 3 = 0xC355 ∧
      markerWord 4 = 0xB455 ∧ markerWord 5 = 0xA555 := by decide

/-- R173's examples at `histCount = 4`, slot 0 of protocol 2 (bins 40 and 41): the floor alone, then an average of 50000. -/
def slotCase (v : Mag) (floor : BitVec 34) : Bool :=
  slotOn { tiny.rx with histCount := 4, histSum := List.replicate 41 0 ++ [floor] } 2 0 (List.replicate 40 0 ++ [v])

theorem test_slot_decision :
    slotCase 12288 0 = false ∧ slotCase 12289 0 = true ∧ slotCase 100000 200000 = false ∧ slotCase 150001 200000 = true := by
  decide

/-- R131's example: five spectra leave head 1 and the last four in the ring. -/
theorem test_ring_of_five :
    (let rx := [[5], [6], [7], [8], [9]].foldl (fun rx m => analyze m rx) tiny.rx
    (rx.histBuf, rx.histHead, rx.histCount, rx.histSum)) = ([[9], [6], [7], [8]], 1, 4, [30]) := by decide

/-! ## Inputs that meet the hypotheses of the statements

One theorem per statement with hypotheses, named after it; where a statement has several clauses, the boundary values of each. -/

/-- `s` with the words `ws` on `CMD`. -/
def commanded (s : State) (ws : List Word) : State := { s with io := { s.io with cmd := ws } }

theorem witness_DecodeOfEncodeIsTheCommand :
    Instr.wellFormed (.txinit 15 255 4095) = true ∧ Instr.wellFormed (.rdreg 14) = true ∧
      Instr.wellFormed (.catget 5) = true ∧ Instr.wellFormed (.catname 5 3) = true := by decide

theorem witness_EncodeOfDecodeIsTheWord : decode 0x20232001 = .ok (.txinit 2 50 1) := by decide

theorem witness_StepRunsTheDecodedCommand :
    (commanded tiny [0x10000000, 7]).resetIn = none ∧ (commanded tiny [0x10000000, 7]).io.cmd = 0x10000000 :: [7] ∧
      decode 0x10000000 = .ok .catlen := by decide

theorem witness_IllegalWordIsAnsweredAndSkipped :
    (commanded tiny [0x02000000]).resetIn = none ∧ (commanded tiny [0x02000000]).cfg.cfgFault = false ∧
      (commanded tiny [0x02000000]).io.cmd = 0x02000000 :: [] ∧ IllegalWord 0x02000000 := by
  unfold IllegalWord; decide

theorem witness_IllegalWord_formats : IllegalWord 0x10000001 ∧ IllegalWord 0x01010000 := by unfold IllegalWord; decide
theorem witness_IllegalWord_rdreg : IllegalWord 0x01000100 ∧ IllegalWord 0x0100000F := by unfold IllegalWord; decide
theorem witness_IllegalWord_catget : IllegalWord 0x12000006 ∧ IllegalWord 0x12000100 := by unfold IllegalWord; decide
theorem witness_IllegalWord_catname : IllegalWord 0x13000400 ∧ IllegalWord 0x13000006 := by unfold IllegalWord; decide
theorem witness_legal_rdreg_catget : ¬ IllegalWord 0x0100000E ∧ ¬ IllegalWord 0x12000005 := by unfold IllegalWord; decide
theorem witness_legal_catname_txinit : ¬ IllegalWord 0x13000305 ∧ ¬ IllegalWord 0x20FFFFFF := by unfold IllegalWord; decide

theorem witness_ConfigFaultAnswersEveryWord :
    (commanded faulty [0xFFFFFFFF]).resetIn = none ∧ (commanded faulty [0xFFFFFFFF]).cfg.cfgFault = true ∧
      (commanded faulty [0xFFFFFFFF]).io.cmd = 0xFFFFFFFF :: [] := by decide

theorem witness_StepWaitsOnlyForAWordOrForBytes :
    step State.reset = .fault .noCommand ∧ step (commanded tiny [0x20232001]) = .fault .hdiStarved := ⟨rfl, rfl⟩

theorem witness_EveryCommandAnswersOnce :
    (∃ t, step (commanded tiny [0x10000000]) = .next t) ∧ (∃ t, step (commanded tiny [0xFFFFFFFF]) = .next t) ∧
      ∃ t, step (commanded faulty [0x10000000]) = .next t := ⟨⟨_, rfl⟩, ⟨_, rfl⟩, ⟨_, rfl⟩⟩

theorem witness_ResetWithLegalStraps :
    ({ tiny with resetIn := some Config.reference } : State).resetIn = some Config.reference ∧
      legalConfig Config.reference = true := by decide

/-- R251's examples: the seven conditions at the edge. -/
theorem witness_CfgFaultExactlyOnIllegalStraps :
    ({ tiny with resetIn := some illegalStraps } : State).resetIn = some illegalStraps ∧
      legalConfig illegalStraps = false ∧ legalConfig tinyStraps = true ∧ legalConfig smallStraps = true ∧
      legalConfig { Config.reference with srOut := 44100 } = false ∧
      legalConfig { Config.reference with srIn := 8000 } = false ∧
      legalConfig { Config.reference with spf := 1025 } = false ∧ legalConfig { Config.reference with spf := 0 } = false ∧
      legalConfig { Config.reference with ssIn := 1 } = false ∧ legalConfig { Config.reference with ssOut := 3 } = false ∧
      legalConfig { Config.reference with srIn := 12000 } = true := by decide

theorem witness_ConfigurationIsImmutable :
    (∃ t, exec (.txinit 2 50 1) withPayload = .next t) ∧ (∃ t, exec .txsend sending = .next t) ∧
      ∃ t, exec .rxrecv tiny = .next t := ⟨⟨_, rfl⟩, ⟨_, rfl⟩, ⟨_, rfl⟩⟩

theorem witness_TransmitAndReceiveAreDisjoint :
    (∃ t, exec .rxrecv { tiny with io := { tiny.io with ain := [[1, 2]] } } = .next t) ∧
      (∃ t, exec .txsend sending = .next t) ∧ ∃ t, exec (.txinit 2 50 1) withPayload = .next t :=
  ⟨⟨_, rfl⟩, ⟨_, rfl⟩, ⟨_, rfl⟩⟩

theorem witness_RdregAnswersTheRegister :
    tiny.cfg.cfgFault = false ∧ (14 : BitVec 8).toNat < 15 ∧ 15 ≤ (15 : BitVec 8).toNat := by decide

theorem witness_StatusWordBits : legalConfig tinyStraps = true ∧ legalConfig Config.reference = true := by decide

theorem witness_CatalogLengthAndDefault : State.reset.cfg.cfgFault = false := by decide

theorem witness_CatgetAnswersThePackedRow :
    tiny.cfg.cfgFault = false ∧ (5 : BitVec 8).toNat < 6 ∧ 6 ≤ (6 : BitVec 8).toNat := by decide

theorem witness_CatnameAnswersNameBytes :
    tiny.cfg.cfgFault = false ∧ ((5 : BitVec 8).toNat < 6 ∧ (3 : BitVec 8).toNat < 4) ∧ 6 ≤ (6 : BitVec 8).toNat ∧
      4 ≤ (4 : BitVec 8).toNat := by decide

/-- A spectrum of `n` bins with magnitude `100000` on the tone bins of the slots `onSet` and 0 elsewhere. -/
def tones (n : Nat) (p : ProtoId) (onSet : List Nat) : List Mag :=
  (List.range n).map fun k => if k ∈ onSet.map (binOn p) then 100000 else 0

/-- The ring of `small` after one frame with the marker of protocol 2. -/
def heard : RxState := analyze (tones 89 2 (markerSet 2)) small.rx

theorem witness_ProtoOkConditions :
    initValid small.cfg 1 2 50 = some 2 ∧ initValid small.cfg 140 2 100 = some 2 ∧
      detect small.cfg heard (tones 89 2 (markerSet 2)) = some 2 := by decide

theorem witness_MarkerWordPattern :
    (7 < 16 ∧ 7 < 8) ∧ (8 < 16 ∧ ¬ 8 < 8 ∧ 8 < 12) ∧ (11 < 16 ∧ 11 < 12) ∧ (12 < 16 ∧ ¬ 12 < 12) ∧ 15 < 16 ∧
      (2 : ProtoId) ≠ 3 := by decide

theorem witness_EncodedStreamBounds :
    (1 ≤ 140 ∧ 140 ≤ 140 ∧ 1 ≤ 1 ∧ 1 ≤ 32) ∧ (1 ≤ 32 ∧ 32 ≤ 32) ∧ (1 ≤ 2 ∧ 2 ≤ 2) ∧ (3 ≤ 5 ∧ 5 ≤ 5) := by decide

/-- A code whose parity is three zero bytes, and which takes every block as clean. -/
def plainCode : EccCode := { enc := fun _ => [0, 0, 0], dec := fun r => some (r.take (r.length - 3), false) }

theorem witness_EncodedStreamLayout :
    (1 ≤ 3 ∧ 3 ≤ 32) ∧ (1 ≤ 2 ∧ 2 ≤ 140) ∧ ([0x4F, 0x4B] : List Byte).length = 2 ∧
      ∀ d : List Byte, d.length = 3 → (plainCode.enc d).length = 3 := ⟨by decide, by decide, rfl, fun _ _ => rfl⟩

/-- The fourfold repetition code for one data byte, decoded by a three-to-one majority. -/
def repetition : EccCode :=
  { enc := fun d => [d.getD 0 0, d.getD 0 0, d.getD 0 0]
    dec := fun r =>
      match r with
      | [a, b, c, e] =>
        if a = b ∧ b = c ∧ c = e then some ([a], false)
        else if b = c ∧ c = e then some ([b], true)
        else if a = c ∧ c = e then some ([a], true)
        else if a = b ∧ b = e then some ([a], true)
        else if a = b ∧ b = c then some ([a], true)
        else none
      | _ => none }

theorem repetition_contract : repetition.Contract 1 where
  enc_length := fun _ _ => rfl
  dec_length := by
    intro r d b _ h
    simp only [repetition] at h
    split at h
    · (repeat' split at h) <;> first | (cases h; rfl) | cases h
    · cases h
  clean := by
    intro d hd
    obtain ⟨a, rfl⟩ := List.length_eq_one_iff.mp hd
    simp [EccCode.codeword, repetition]
  corrects := by
    intro d r hd hr h1 h2
    obtain ⟨a, rfl⟩ := List.length_eq_one_iff.mp hd
    obtain ⟨x, y, z, w, rfl⟩ : ∃ x y z w, r = [x, y, z, w] := by
      match r, hr with
      | [x, y, z, w], _ => exact ⟨x, y, z, w, rfl⟩
    simp only [EccCode.codeword, repetition, byteDistance, List.cons_append, List.nil_append, List.getD_cons_zero,
      Config.eccT] at h1 h2 ⊢
    by_cases hx : x = a <;> by_cases hy : y = a <;> by_cases hz : z = a <;> by_cases hw : w = a <;>
      simp only [hx, hy, hz, hw, if_true, if_false] at h1 h2 ⊢ <;> grind
  detects := by
    intro d r hd hr h
    obtain ⟨a, rfl⟩ := List.length_eq_one_iff.mp hd
    obtain ⟨x, y, z, w, rfl⟩ : ∃ x y z w, r = [x, y, z, w] := by
      match r, hr with
      | [x, y, z, w], _ => exact ⟨x, y, z, w, rfl⟩
    simp only [EccCode.codeword, repetition, byteDistance, List.cons_append, List.nil_append, List.getD_cons_zero,
      Config.eccT] at h ⊢
    by_cases hx : x = a <;> by_cases hy : y = a <;> by_cases hz : z = a <;> by_cases hw : w = a <;>
      simp only [hx, hy, hz, hw, if_true, if_false] at h ⊢ <;> grind

theorem witness_CodecRoundTripWithOneErrorPerBlock :
    repetition.Contract 1 ∧ fecEncode repetition [0x61] 1 1 = some [1, 1, 1, 1, 0x61, 0x61, 0x61, 0x61] ∧
      ([1, 9, 1, 1, 0x61, 0x61, 0x61, 0] : List Byte).length = 8 ∧
      ∀ i, i < nBlocks 1 1 →
        byteDistance (piece [1, 9, 1, 1, 0x61, 0x61, 0x61, 0] i (1 + 3))
          (piece [1, 1, 1, 1, 0x61, 0x61, 0x61, 0x61] i (1 + 3)) ≤ 1 :=
  ⟨repetition_contract, by decide, rfl, by decide⟩

theorem witness_DecodeFailsExactlyWhenABlockOrTheLengthDoes :
    1 ≤ 3 ∧ fecDecode rs3 [0x01, 0x60, 0x00, 0xB1, 0xC4, 0x15] 3 = some { pl := [0x61], len := 1, corrected := true } := by
  decide

theorem witness_ReferenceCodeMeetsItsContract : (1 ≤ 1 ∧ 1 ≤ 32) ∧ 1 ≤ 32 ∧ 32 ≤ 32 := by decide

theorem witness_TxinitCommits :
    withPayload.cfg.cfgFault = false ∧ (1 : BitVec 12).toNat ≤ withPayload.io.hdi.length ∧ 1 ≤ (1 : BitVec 12).toNat ∧
      (140 : BitVec 12).toNat ≤ 140 ∧ (2 : BitVec 4).toNat = (2 : ProtoId).val ∧ protoOk withPayload.cfg 2 = true ∧
      (100 : BitVec 8).toNat ≤ 100 := by decide

/-- Each of the four conditions of R141 failing alone, at its boundary. -/
theorem witness_TxinitFailureChangesNothing :
    withPayload.cfg.cfgFault = false ∧ (0 : BitVec 12).toNat ≤ withPayload.io.hdi.length ∧ ¬ 1 ≤ (0 : BitVec 12).toNat ∧
      ¬ (141 : BitVec 12).toNat ≤ 140 ∧ (¬ ∃ p : ProtoId, (6 : BitVec 4).toNat = p.val ∧ protoOk withPayload.cfg p = true) ∧
      (¬ ∃ p : ProtoId, (3 : BitVec 4).toNat = p.val ∧ protoOk withPayload.cfg p = true) ∧ ¬ (101 : BitVec 8).toNat ≤ 100 := by
  decide

theorem witness_TxsendEmitsOneUnit :
    tiny.cfg.cfgFault = false ∧ tiny.tx.hasData = false ∧ sending.cfg.cfgFault = false ∧ sending.tx.hasData = true := by
  decide

theorem witness_UnitsAreRepeatedFrames : 15 < 16 ∧ 175 < 176 ∧ 2 < framesPerGroup 2 ∧ 8 < framesPerGroup 0 := by decide

theorem witness_FrameSamples :
    3 < 4 ∧ 100 ≤ 100 ∧ ([0, 23] : List Nat).Nodup ∧ ∀ b ∈ ([0, 23] : List Nat), b < max (8 * bytesPerGroup 2) 16 := by
  decide

/-- The tie of R150 at one twelfth of a turn. -/
theorem witness_SineIsTheNearestInteger :
    1 < 12 ∧ |32767 * Real.sin (2 * Real.pi * (1 : ℕ) / (12 : ℕ)) - (sine 1 12 : ℤ)| = 1 / 2 := by
  have h : sine 1 12 = 16384 := by decide
  have hs : Real.sin (2 * Real.pi * (1 : ℕ) / (12 : ℕ)) = 1 / 2 := by
    rw [← Real.sin_pi_div_six]; congr 1; push_cast; ring
  refine ⟨by decide, ?_⟩
  rw [hs, h]; norm_num [abs_of_neg]

/-- The tie premise is met by `witness_SineIsTheNearestInteger`. -/
theorem witness_SineListedFacts : (1023 < 1024 ∧ 0 < 256) ∧ (0 < 1 ∧ 1 < 12) ∧ 0 < 3 := by decide

theorem witness_FloatViewIsExact : (-32768 : I16) ≠ 0 ∧ (0 : I16) = 0 := by decide

theorem witness_TransmitAccessors : sending.cfg.cfgFault = false := by decide
theorem witness_StateObservers : tiny.cfg.cfgFault = false := by decide
theorem witness_FrameCounters : tiny.cfg.cfgFault = false := by decide
theorem witness_ProtocolAccessors : tiny.cfg.cfgFault = false := by decide
theorem witness_RxtakeHandsOverThePayload : tiny.cfg.cfgFault = false := by decide

theorem witness_RxspecHandsOverTheSpectrum :
    tiny.cfg.cfgFault = false ∧ tiny.rx.specNew = false ∧ ({ tiny with rx := analyze [5] tiny.rx } : State).rx.specNew = true := by
  decide

theorem witness_TakersClearAndAccessorsDoNot :
    sending.cfg.cfgFault = false ∧ (∃ t, exec .txtake16 sending = .next t) ∧ (∃ t, exec .rxtake tiny = .next t) ∧
      (∃ t, exec .rxspec tiny = .next t) ∧ (∃ t, exec (.rdreg 14) tiny = .next t) ∧ ∃ t, exec .catlen faulty = .next t :=
  ⟨rfl, ⟨_, rfl⟩, ⟨_, rfl⟩, ⟨_, rfl⟩, ⟨_, rfl⟩, ⟨_, rfl⟩⟩

/-- `tiny` with the answers `ain` to the next pulls. -/
def fed (ain : List (List Byte)) : State := { tiny with io := { tiny.io with ain := ain } }

theorem witness_RxrecvAccumulatesAPartialFrame :
    (fed [[7]]).cfg.cfgFault = false ∧
      (fed [[7]]).rx.frameFill.toNat +
          (pullBytes (fed [[7]]).io.ain
            ((fed [[7]]).cfg.spf.toNat * (fed [[7]]).cfg.ssIn.toNat - (fed [[7]]).rx.frameFill.toNat)).1.length <
        (fed [[7]]).cfg.spf.toNat * (fed [[7]]).cfg.ssIn.toNat ∧
      (fed [[7]]).cfg.spf.toNat * (fed [[7]]).cfg.ssIn.toNat ≤ 4096 := by decide

theorem witness_RxrecvProcessesACompleteFrame :
    (fed [[7, 8]]).cfg.cfgFault = false ∧
      (fed [[7, 8]]).rx.frameFill.toNat +
          (pullBytes (fed [[7, 8]]).io.ain
            ((fed [[7, 8]]).cfg.spf.toNat * (fed [[7, 8]]).cfg.ssIn.toNat - (fed [[7, 8]]).rx.frameFill.toNat)).1.length =
        (fed [[7, 8]]).cfg.spf.toNat * (fed [[7, 8]]).cfg.ssIn.toNat ∧
      (fed [[7, 8]]).cfg.spf.toNat * (fed [[7, 8]]).cfg.ssIn.toNat ≤ 4096 ∧
      (fed [[7, 8]]).rx.frameBytes.length = (fed [[7, 8]]).cfg.spf.toNat * (fed [[7, 8]]).cfg.ssIn.toNat := by decide

/-! ### States that meet the invariants -/

theorem replicate_getD_zero {w : Nat} (n b : Nat) : (List.replicate n (0 : BitVec w)).getD b 0 = 0 := by
  rw [List.getD_eq_getElem?_getD, List.getElem?_replicate]
  split <;> rfl

/-- `tiny` in Analyzing meets the receive invariant. -/
theorem tiny_rxInv : RxInv tiny.cfg tiny.rx where
  exclusive := by decide
  framesToAnalyze_eq := by decide
  analyzing_counters := by decide
  receiving_counters := by decide
  provisional := by decide
  recorded_le := by decide
  spec_length := by decide
  histBuf_length := by decide
  slot_length := by decide
  histSum_length := by decide
  histCount_le := by decide
  filling := by decide
  histSum_eq := by decide
  frameBytes_length := by decide
  frameFill_lt := by decide
  accOn_length := List.length_replicate
  accNf_length := List.length_replicate
  acc_bound := fun h => absurd h (by decide)
  enc_length := List.length_replicate
  data_length := List.length_replicate
  new_payload := by decide
  no_payload := by decide

/-- `tiny` after four frames: the ring is full. -/
def fullRing : RxState := [[5], [6], [7], [0xFFFFFFFF]].foldl (fun rx m => analyze m rx) tiny.rx

theorem fullRing_rxInv : RxInv tiny.cfg fullRing where
  exclusive := by decide
  framesToAnalyze_eq := by decide
  analyzing_counters := by decide
  receiving_counters := by decide
  provisional := by decide
  recorded_le := by decide
  spec_length := by decide
  histBuf_length := by decide
  slot_length := by decide
  histSum_length := by decide
  histCount_le := by decide
  filling := by decide
  histSum_eq := by decide
  frameBytes_length := by decide
  frameFill_lt := by decide
  accOn_length := List.length_replicate
  accNf_length := List.length_replicate
  acc_bound := fun h => absurd h (by decide)
  enc_length := List.length_replicate
  data_length := List.length_replicate
  new_payload := by decide
  no_payload := by decide

/-- `small` just after the eighth marker frame of protocol 2. -/
def listening : RxState := startReceiving { small.rx with framesLeftToAnalyze := 0 } 2

theorem listening_rxInv : RxInv small.cfg listening where
  exclusive := by decide
  framesToAnalyze_eq := by decide
  analyzing_counters := by decide
  receiving_counters := by decide
  provisional := by decide
  recorded_le := by decide
  spec_length := by decide
  histBuf_length := by decide
  slot_length := by decide
  histSum_length := by decide
  histCount_le := by decide
  filling := by decide
  histSum_eq := by decide
  frameBytes_length := List.length_replicate
  frameFill_lt := by decide
  accOn_length := List.length_replicate
  accNf_length := List.length_replicate
  acc_bound := fun _ b => ⟨Nat.le_trans (Nat.le_of_eq (congrArg BitVec.toNat (replicate_getD_zero 256 b))) (Nat.zero_le _),
    Nat.le_trans (Nat.le_of_eq (congrArg BitVec.toNat (replicate_getD_zero 256 b))) (Nat.zero_le _)⟩
  enc_length := List.length_replicate
  data_length := List.length_replicate
  new_payload := by decide
  no_payload := by decide

/-- `tiny` in the middle of a transmission whose protocol passes `PROTO_OK` under `small`. -/
def transmitting : State :=
  { small with tx := { small.tx with hasData := true, len := 1, groups := 2, unit := 1, encLen := 6, protocolId := 2, volume := 50 } }

theorem transmitting_txInv : TxInv transmitting.cfg transmitting.tx where
  payload_length := List.length_replicate
  enc_length := List.length_replicate
  out_length := List.length_replicate
  len_le := by decide
  volume_le := by decide
  outCount_le := by decide
  taken_or_whole := by decide
  sending := by decide
  idle := by decide

theorem small_rxInv : RxInv small.cfg small.rx where
  exclusive := by decide
  framesToAnalyze_eq := by decide
  analyzing_counters := by decide
  receiving_counters := by decide
  provisional := by decide
  recorded_le := by decide
  spec_length := by decide
  histBuf_length := by decide
  slot_length := by decide
  histSum_length := by decide
  histCount_le := by decide
  filling := by decide
  histSum_eq := by decide
  frameBytes_length := List.length_replicate
  frameFill_lt := by decide
  accOn_length := List.length_replicate
  accNf_length := List.length_replicate
  acc_bound := fun h => absurd h (by decide)
  enc_length := List.length_replicate
  data_length := List.length_replicate
  new_payload := by decide
  no_payload := by decide

theorem transmitting_inv : transmitting.Inv := ⟨by unfold CfgInv; decide, fun _ => transmitting_txInv, fun _ => small_rxInv⟩

theorem witness_TransmissionTakesExactlyItsUnits :
    transmitting.Inv ∧ transmitting.cfg.cfgFault = false ∧ transmitting.tx.hasData = true ∧
      1 < 1 + transmitting.tx.groups.toNat - transmitting.tx.unit.toNat := ⟨transmitting_inv, by decide, by decide, by decide⟩

theorem witness_EveryStepKeepsTheInvariant :
    transmitting.Inv ∧ (∃ t, exec .txsend transmitting = .next t) ∧ (commanded transmitting [0x30000000]).Inv ∧
      ∃ t, step (commanded transmitting [0x30000000]) = .next t :=
  ⟨transmitting_inv, ⟨_, rfl⟩, ⟨transmitting_inv.cfg, transmitting_inv.tx, transmitting_inv.rx⟩, ⟨_, rfl⟩⟩

theorem witness_AnalyzeUpdatesTheRing :
    (RxInv tiny.cfg tiny.rx ∧ ([9] : List Mag).length = tiny.cfg.nBins.toNat ∧ tiny.rx.histCount.toNat ≠ 4) ∧
      RxInv tiny.cfg fullRing ∧ fullRing.histCount.toNat = 4 :=
  ⟨⟨tiny_rxInv, by decide, by decide⟩, fullRing_rxInv, by decide⟩

theorem witness_SlotDecisionIsThreeTimesTheFloor : 0 < fullRing.histCount.toNat := by decide

theorem witness_DetectionIsTheLeastMatch :
    protoOk small.cfg 2 = true ∧
      ∀ s, s < 16 → slotOn heard 2 s (tones 89 2 (markerSet 2)) = (markerWord 2).getLsbD s := by decide

/-- A frame that matches no marker, the first and the seventh of a run, and the eighth. -/
theorem witness_AnalyzingStepCases :
    detect small.cfg heard (tones 89 2 []) = none ∧ detect small.cfg heard (tones 89 2 (markerSet 2)) = some 2 ∧
      (if heard.cand = some 2 then heard.framesLeftToAnalyze - 1 else heard.framesToAnalyze - 1) ≠ 0 ∧
      (let run : RxState := { heard with cand := some 2, framesLeftToAnalyze := 1 }
      detect small.cfg run (tones 89 2 (markerSet 2)) = some 2 ∧
        (if run.cand = some 2 then run.framesLeftToAnalyze - 1 else run.framesToAnalyze - 1) = 0) := by decide

theorem witness_AccumulationSkipsEdgeFrames :
    (0 < 3 ∧ accumulates 3 0 = false) ∧ accumulates (framesPerGroup 2) 2 = false ∧ accumulates (framesPerGroup 2) 1 = true ∧
      accumulates (framesPerGroup 0) 7 = true ∧ accumulates (framesPerGroup 0) 8 = false ∧ accumulates 2 0 = true ∧
      23 < listening.accOn.length ∧ 23 < listening.accNf.length := by
  have h : listening.accOn.length = 256 ∧ listening.accNf.length = 256 := ⟨List.length_replicate, List.length_replicate⟩
  rw [h.1, h.2]; decide

theorem witness_GroupDecisionWritesItsBytes :
    0 * bytesPerGroup 2 + bytesPerGroup 2 ≤ small.rx.enc.length ∧ 199 * bytesPerGroup 2 + bytesPerGroup 2 ≤ small.rx.enc.length := by
  have : small.rx.enc.length = 600 := List.length_replicate
  rw [this]; decide

theorem witness_HeaderRefinesTheDuration :
    hdrCheck rs3 listening.enc (bytesPerGroup 2) = none ∧
      hdrCheck rs3 ([0x01, 0x61, 0x00, 0xB1, 0xC4, 0x15] ++ listening.enc) (bytesPerGroup 2) = some 1 := by decide

theorem witness_DecodingSurfacesOrDrops :
    fecDecode rs3 listening.enc (bytesPerGroup listening.curProto) = none ∧
      fecDecode rs3 ({ listening with enc := [0x01, 0x61, 0x00, 0xB1, 0xC4, 0x15] } : RxState).enc (bytesPerGroup 2) =
        some { pl := [0x61], len := 1, corrected := false } := by decide

theorem witness_ReceptionCountsDownAndEnds :
    RxInv small.cfg listening ∧ listening.receiving = true ∧ (tones 89 2 []).length = small.cfg.nBins.toNat ∧
      (List.replicate 290 (tones 89 2 [], ([] : List Word))).length = listening.framesLeftToRecord.toNat ∧
      ∀ f ∈ List.replicate 290 (tones 89 2 [], ([] : List Word)), f.1.length = small.cfg.nBins.toNat := by
  refine ⟨listening_rxInv, by decide, by decide, by rw [List.length_replicate]; decide, ?_⟩
  intro f hf
  rw [List.eq_of_mem_replicate hf]; decide

theorem witness_QuietInputNeverTriggers :
    (∀ v ∈ ([12288] : List Mag), v.toNat ≤ 12288) ∧
    RxInv tiny.cfg tiny.rx ∧ tiny.rx.analyzing = true ∧ [(([12288] : List Mag), ([] : List Word))] ≠ [] ∧
      ∀ f ∈ [(([12288] : List Mag), ([] : List Word))], f.1.length = tiny.cfg.nBins.toNat ∧ ∀ v ∈ f.1, v.toNat ≤ 12288 :=
  ⟨by simp, tiny_rxInv, rfl, by simp, by simp [show tiny.cfg.nBins.toNat = 1 by decide]⟩

/-! ### Separated tones -/

theorem tones_length (n : Nat) (p : ProtoId) (onSet : List Nat) : (tones n p onSet).length = n := by simp [tones]

theorem tones_getD (n : Nat) (p : ProtoId) (onSet : List Nat) (k : Nat) (hk : k < n) :
    ((tones n p onSet).getD k 0).toNat = if k ∈ onSet.map (binOn p) then 100000 else 0 := by
  simp only [tones, List.getD_eq_getElem?_getD, List.getElem?_map, List.getElem?_range hk, Option.map_some, Option.getD_some]
  split <;> rfl

theorem binOn_mem_map (p : ProtoId) (onSet : List Nat) (b : Nat) : binOn p b ∈ onSet.map (binOn p) ↔ b ∈ onSet := by
  simp [binOn, Config.freqDeltaBin]

theorem binOff_not_mem_map (p : ProtoId) (onSet : List Nat) (b : Nat) : binOff p b ∉ onSet.map (binOn p) := by
  simp only [binOff, binOn, Config.freqDeltaBin, List.mem_map, not_exists, not_and]
  intro x _; omega

theorem binOn_two (b : Nat) : binOn 2 b = 40 + 2 * b := rfl
theorem binOff_two (b : Nat) : binOff 2 b = 40 + 2 * b + 1 := rfl

theorem emittable_lt {x : List Nat} (h : EmittableSet 2 x) {b : Nat} (hb : b ∈ x) : b < 24 := by
  rcases h with rfl | ⟨_, h⟩
  · have : ∀ b ∈ markerSet 2, b < 24 := by decide
    exact this b hb
  · exact h b hb

/-- Every other protocol usable under `small` keys a marker slot whose bin carries no tone of the marker of protocol 2. -/
theorem other_marker_slot (p' : ProtoId) (hne : p' ≠ 2) (hok : protoOk small.cfg p' = true) :
    ∃ s, s < 16 ∧ markerOn p' s = true ∧ ((tones 89 2 (markerSet 2)).getD (binOn p' s) 0).toNat = 0 := by
  revert p'; decide

theorem small_toneSeparation : ToneSeparation small.cfg (tones 89 2) 2 where
  length := fun x _ => tones_length 89 2 x
  on := by
    intro x x' b b' hx _ hb hb'
    have hlt := emittable_lt hx hb
    have hT : b' < 24 := hb'
    rw [tones_getD 89 2 x' _ (by rw [binOff_two]; omega), tones_getD 89 2 x _ (by rw [binOn_two]; omega),
      if_neg (binOff_not_mem_map 2 x' b'), if_pos ((binOn_mem_map 2 x b).mpr hb)]
    decide
  off := by
    intro x b _ hb hT
    have hT : b < 24 := hT
    rw [tones_getD 89 2 x _ (by rw [binOn_two]; omega), if_neg (fun h => hb ((binOn_mem_map 2 x b).mp h))]
    decide
  other := by
    intro p' rx hne hok
    obtain ⟨s, hs, hon, hz⟩ := other_marker_slot p' hne hok
    rw [markerMatch, List.all_eq_false]
    refine ⟨s, List.mem_range.mpr hs, ?_⟩
    have : slotOn rx p' s (tones 89 2 (markerSet 2)) = false := by
      rw [slotOn, hz]; simp
    rw [this, hon]; decide

theorem witness_IdealSpectraDeliverThePayload :
    legalConfig smallStraps = true ∧ protoOk (CfgState.afterReset smallStraps) 2 = true ∧
      ToneSeparation (CfgState.afterReset smallStraps) (tones 89 2) 2 ∧
      (∀ d : List Byte, d.length = bytesPerGroup 2 → (plainCode.enc d).length = 3) ∧
      (∀ d : List Byte, d.length = bytesPerGroup 2 → plainCode.dec (d ++ plainCode.enc d) = some (d, false)) ∧
      (1 ≤ 1 ∧ 1 ≤ 140) ∧ ([0x61] : List Byte).length = 1 ∧
      fecEncode plainCode [0x61] 1 (bytesPerGroup 2) = some [0x01, 0x61, 0x00, 0, 0, 0] := by
  refine ⟨by decide, by decide, small_toneSeparation, fun _ _ => rfl, ?_, by decide, rfl, by decide⟩
  intro d hd
  simp [plainCode]

end Sys2Proof.Tests
end

section
/-! PROOFS of the family `00_scope.md`: when a step happens (O8). Every command answers a next state unless its data phase
(R84) is longer than what stands on `HDI`; only `TXINIT` has one. -/

namespace Sys2Proof.Machine

/-! ### Commands that answer -/

/-- The command happens: its outcome is a next state. -/
def Answers (r : Result) : Prop := ∃ t, r = .next t

theorem answers_answer (s : State) (v : Word) : Answers (answer s v) := ⟨_, rfl⟩

theorem answers_whenConfigured {s : State} {body : Result} (h : s.cfg.cfgFault = false → Answers body) :
    Answers (whenConfigured s body) := by
  cases hc : s.cfg.cfgFault with
  | false => rw [whenConfigured_of_legal hc]; exact h hc
  | true => exact ⟨_, whenConfigured_of_fault hc body⟩

/-- The gate around a plain answer: the shape of every command without a condition of its own. -/
theorem answers_gated_answer (s u : State) (v : Word) : Answers (whenConfigured s (answer u v)) :=
  answers_whenConfigured fun _ => answers_answer u v

theorem answers_refuseIllegal (s : State) : Answers (refuseIllegal s) := ⟨_, refuseIllegal_eq s⟩

theorem answers_execRdreg (idx : BitVec 8) (s : State) : Answers (execRdreg idx s) := by
  unfold execRdreg
  split
  · exact answers_gated_answer _ _ _
  · exact answers_refuseIllegal s

theorem answers_execCatget (idx : BitVec 8) (s : State) : Answers (execCatget idx s) := by
  unfold execCatget
  split
  · exact answers_gated_answer _ _ _
  · exact answers_refuseIllegal s

theorem answers_execCatname (idx sub : BitVec 8) (s : State) : Answers (execCatname idx sub s) := by
  unfold execCatname
  split
  · split
    · exact answers_gated_answer _ _ _
    · exact answers_refuseIllegal s
  · exact answers_refuseIllegal s

theorem answers_execTxsend (s : State) : Answers (execTxsend s) := by
  refine answers_whenConfigured fun _ => ?_
  split <;> exact answers_answer _ _

theorem answers_execRxspec (s : State) : Answers (execRxspec s) := by
  refine answers_whenConfigured fun _ => ?_
  split <;> exact answers_answer _ _

/-! ### `TXINIT` and its data phase (R64, R262) -/

theorem execTxinit_of_starved {s : State} (proto : BitVec 4) (volume : BitVec 8) {length : BitVec 12}
    (hc : s.cfg.cfgFault = false) (h : s.io.hdi.length < length.toNat) :
    execTxinit proto volume length s = .fault .hdiStarved := by
  simp [execTxinit, hc, popBytes_eq_none_iff.mpr h]

/-- With its bytes present `TXINIT` answers on each of its paths: invalid operands (R142), no codeword, or the commit. -/
theorem answers_execTxinit {s : State} (proto : BitVec 4) (volume : BitVec 8) {length : BitVec 12}
    (h : s.cfg.cfgFault = false → length.toNat ≤ s.io.hdi.length) : Answers (execTxinit proto volume length s) := by
  refine answers_whenConfigured fun hc => ?_
  rw [popBytes_eq_some_iff.mpr ⟨h hc, rfl, rfl⟩]
  dsimp only
  split
  · exact answers_answer _ _
  · split <;> exact answers_answer _ _

/-! ### One command -/

/-- The command announces more data bytes than `HDI` holds, and the `CFGFAULT` gate does not answer first (R64, R238). -/
def Starved (i : Instr) (s : State) : Prop := s.cfg.cfgFault = false ∧ s.io.hdi.length < i.dataPhase

theorem le_of_not_starved {i : Instr} {s : State} (h : ¬ Starved i s) (hc : s.cfg.cfgFault = false) :
    i.dataPhase ≤ s.io.hdi.length :=
  Nat.le_of_not_lt fun hlt => h ⟨hc, hlt⟩

/-- Only `TXINIT` has a data phase (R84). -/
theorem starved_iff {i : Instr} {s : State} :
    Starved i s ↔ s.cfg.cfgFault = false ∧
      ∃ proto volume length, i = .txinit proto volume length ∧ s.io.hdi.length < length.toNat := by
  cases i <;> simp [Starved, Instr.dataPhase]

theorem exec_of_starved {i : Instr} {s : State} (h : Starved i s) : exec i s = .fault .hdiStarved := by
  obtain ⟨hc, proto, volume, length, rfl, hlt⟩ := starved_iff.mp h
  exact execTxinit_of_starved proto volume hc hlt

theorem answers_exec {i : Instr} {s : State} (h : ¬ Starved i s) : Answers (exec i s) := by
  cases i with
  | rdreg idx => exact answers_execRdreg idx s
  | catget idx => exact answers_execCatget idx s
  | catname idx sub => exact answers_execCatname idx sub s
  | txinit proto volume length => exact answers_execTxinit proto volume (le_of_not_starved h)
  | txsend => exact answers_execTxsend s
  | rxspec => exact answers_execRxspec s
  | catlen | catdef | txhas | txtake16 | rxrecv | rxisrecv | rxisana | rxftr | rxfltr | rxfta | rxflta | rxtake | rxproto
    | rxprotoid => exact answers_gated_answer _ _ _

/-! ### One step -/

theorem step_of_reset {s : State} {p : Config.Straps} (h : s.resetIn = some p) :
    step s = .next (State.afterReset s.prims p) := by
  simp [step, h]

/-- `CMD` is empty and reset is not asserted (R70). -/
def NoCommand (s : State) : Prop := s.resetIn = none ∧ s.io.cmd = []

theorem step_of_noCommand {s : State} (h : NoCommand s) : step s = .fault .noCommand := by
  obtain ⟨hr, hcmd⟩ := h
  simp [step, hr, takeCommand_eq_none_iff.mpr hcmd]

theorem step_of_decodes {s : State} {w : Word} {rest : List Word} {i : Instr} (hr : s.resetIn = none)
    (h : s.io.cmd = w :: rest) (hd : decode w = .ok i) :
    step s = exec i { s with io := { s.io with cmd := rest } } := by
  simp [step, hr, takeCommand_eq_some h, hd]

theorem step_of_not_decodes {s : State} {w : Word} {rest : List Word} {e : DecodeError} (hr : s.resetIn = none)
    (h : s.io.cmd = w :: rest) (hd : decode w = .error e) :
    step s = refuseIllegal { s with io := { s.io with cmd := rest } } := by
  simp [step, hr, takeCommand_eq_some h, hd]

/-- The oldest word of `CMD` is a command whose data bytes are missing, and reset is not asserted (R64). -/
def HdiStarved (s : State) : Prop :=
  s.resetIn = none ∧ ∃ w rest i, s.io.cmd = w :: rest ∧ decode w = .ok i ∧ Starved i s

theorem step_of_hdiStarved {s : State} (h : HdiStarved s) : step s = .fault .hdiStarved := by
  obtain ⟨hr, w, rest, i, hcmd, hd, hs⟩ := h
  rw [step_of_decodes hr hcmd hd]
  -- taking the word off `CMD` changes neither `HDI` nor `cfgFault`
  exact exec_of_starved hs

/-- A step that waits for nothing happens. -/
theorem answers_step {s : State} (hn : ¬ NoCommand s) (hh : ¬ HdiStarved s) : Answers (step s) := by
  cases hr : s.resetIn with
  | some p => exact ⟨_, step_of_reset hr⟩
  | none =>
    cases hcmd : s.io.cmd with
    | nil => exact absurd ⟨hr, hcmd⟩ hn
    | cons w rest =>
      cases hd : decode w with
      | error e => rw [step_of_not_decodes hr hcmd hd]; exact answers_refuseIllegal _
      | ok i =>
        rw [step_of_decodes hr hcmd hd]
        exact answers_exec fun hs => hh ⟨hr, w, rest, i, hcmd, hd, hs⟩

/-- Everything a step can do: happen, or wait for a word, or wait for bytes. -/
theorem step_cases (s : State) :
    Answers (step s) ∨ (NoCommand s ∧ step s = .fault .noCommand) ∨ (HdiStarved s ∧ step s = .fault .hdiStarved) := by
  by_cases hn : NoCommand s
  · exact .inr (.inl ⟨hn, step_of_noCommand hn⟩)
  · by_cases hh : HdiStarved s
    · exact .inr (.inr ⟨hh, step_of_hdiStarved hh⟩)
    · exact .inl (answers_step hn hh)

theorem step_ne_refused (s : State) (r : Refusal) : step s ≠ .refused r := by
  obtain ⟨t, h⟩ | ⟨-, h⟩ | ⟨-, h⟩ := step_cases s <;> simp [h]

theorem step_eq_fault_iff {s : State} {f : Fault} :
    step s = .fault f ↔ (f = .noCommand ∧ NoCommand s) ∨ (f = .hdiStarved ∧ HdiStarved s) := by
  constructor
  · intro hf
    obtain ⟨t, h⟩ | ⟨hn, h⟩ | ⟨hh, h⟩ := step_cases s <;> rw [h] at hf <;> cases hf
    · exact .inl ⟨rfl, hn⟩
    · exact .inr ⟨rfl, hh⟩
  · rintro (⟨rfl, hn⟩ | ⟨rfl, hh⟩)
    · exact step_of_noCommand hn
    · exact step_of_hdiStarved hh

/-- The starved step in terms of `TXINIT`'s operands. -/
theorem hdiStarved_iff {s : State} :
    HdiStarved s ↔ s.resetIn = none ∧ s.cfg.cfgFault = false ∧
      ∃ w rest proto volume length, s.io.cmd = w :: rest ∧ decode w = .ok (.txinit proto volume length) ∧
        s.io.hdi.length < length.toNat := by
  constructor
  · rintro ⟨hr, w, rest, i, hcmd, hd, hs⟩
    obtain ⟨hc, proto, volume, length, rfl, hlt⟩ := starved_iff.mp hs
    exact ⟨hr, hc, w, rest, proto, volume, length, hcmd, hd, hlt⟩
  · rintro ⟨hr, hc, w, rest, proto, volume, length, hcmd, hd, hlt⟩
    exact ⟨hr, w, rest, _, hcmd, hd, starved_iff.mpr ⟨hc, proto, volume, length, rfl, hlt⟩⟩

/-- Settles O8: by the case analysis `step_cases`, with the starved step written out in `TXINIT`'s operands. -/
theorem stepWaitsOnlyForAWordOrForBytes : Obligations.StepWaitsOnlyForAWordOrForBytes := by
  unfold Obligations.StepWaitsOnlyForAWordOrForBytes
  intro s
  refine ⟨step_ne_refused s, fun f => ?_⟩
  rw [step_eq_fault_iff, NoCommand, hdiStarved_iff]
  tauto

end Sys2Proof.Machine
end

section
/-! PROOFS of the family `10_state.md`, part 1: what a command can do, said once (`exec_next`); which parts of the state each
command leaves alone (O12), that transmit and receive state are disjoint (O13), and the `CFGFAULT` answer (O7). -/

namespace Sys2Proof.Machine

/-! ### What a command can do -/

/-- `Effect s i u`: the command `i` takes `s` to `u`, its response apart. The commands without a constructor of their own only
respond, and so does every command on some of its paths. -/
inductive Effect (s : State) : Instr → State → Prop
  | none (i : Instr) : Effect s i s
  /-- `TXINIT` takes its bytes and changes nothing else (R142). -/
  | popped {proto : BitVec 4} {volume : BitVec 8} {length : BitVec 12} {pl rest : List Byte}
      (pop : popBytes s.io.hdi length.toNat = some (pl, rest)) :
      Effect s (.txinit proto volume length) { s with io := { s.io with hdi := rest } }
  /-- `TXINIT` commits (R143, R144). -/
  | committed {proto : BitVec 4} {volume : BitVec 8} {length : BitVec 12} {pl rest enc : List Byte} {p : ProtoId}
      (pop : popBytes s.io.hdi length.toNat = some (pl, rest))
      (valid : initValid s.cfg length.toNat proto.toNat volume.toNat = some p)
      (encoded : fecEncode (eccCode s.prims.ecc) pl length.toNat (bytesPerGroup p) = some enc) :
      Effect s (.txinit proto volume length)
        { s with
          io := { s.io with hdi := rest }
          tx := commitInit s.tx p volume.toNat length.toNat pl enc }
  /-- `TXSEND` emits a unit (R145). -/
  | sent (sending : s.tx.hasData = true) :
      Effect s .txsend
        (pushAout { s with tx := advanceUnit s.tx (unitSamples s.cfg.txSpf.toNat s.tx) }
          (outputBytes s.cfg.ssOut.toNat (unitSamples s.cfg.txSpf.toNat s.tx)))
  /-- `TXTAKE16` hands over samples (R156). -/
  | tookSamples :
      Effect s .txtake16
        (pushHdo { s with tx := { s.tx with amp16Count := 0 } }
          ((s.tx.out.take s.tx.amp16Count.toNat).flatMap le16))
  /-- `RXRECV` pulls bytes and processes a complete frame (R170). -/
  | received {pulled : List Byte × List (List Byte)}
      (pull : pulled = pullBytes s.io.ain (frameSize s.cfg - s.rx.frameFill.toNat)) :
      Effect s .rxrecv
        { s with rx := receiveBytes s.cfg s.prims pulled.1 s.rx, io := { s.io with ain := pulled.2 } }
  /-- `RXTAKE` hands over the payload (R207). -/
  | tookPayload :
      Effect s .rxtake
        (pushHdo { s with rx := { s.rx with rxNew := false, dataLength := 0 } }
          (s.rx.data.take s.rx.dataLength.toNat))
  /-- `RXSPEC` hands over the spectrum (R134). -/
  | tookSpectrum :
      Effect s .rxspec (pushHdo { s with rx := { s.rx with specNew := false } } (s.rx.spec.flatMap le32))

/-- `t` is what an effect of `i` on `s` leaves, after one response. -/
def RespondsAfter (s : State) (i : Instr) (t : State) : Prop :=
  ∃ u status value, Effect s i u ∧ t = respond u status value

theorem respondsAfter_of_answer {s u t : State} {i : Instr} {v : Word} (he : Effect s i u) (h : answer u v = .next t) :
    RespondsAfter s i t := by
  cases h; exact ⟨u, .ok, v, he, rfl⟩

theorem respondsAfter_of_whenConfigured {s t : State} {i : Instr} {body : Result} (h : whenConfigured s body = .next t)
    (hb : body = .next t → RespondsAfter s i t) : RespondsAfter s i t := by
  obtain ⟨-, rfl⟩ | ⟨-, hbody⟩ := whenConfigured_next h
  · exact ⟨s, .cfgFault, 0, .none i, rfl⟩
  · exact hb hbody

/-- The gate around a plain answer. -/
theorem respondsAfter_of_gated {s u t : State} {i : Instr} {v : Word} (he : Effect s i u)
    (h : whenConfigured s (answer u v) = .next t) : RespondsAfter s i t :=
  respondsAfter_of_whenConfigured h (respondsAfter_of_answer he)

theorem respondsAfter_of_refuseIllegal {s t : State} (i : Instr) (h : refuseIllegal s = .next t) : RespondsAfter s i t :=
  respondsAfter_of_whenConfigured h fun hb => by cases hb; exact ⟨s, .illegal, 0, .none i, rfl⟩

theorem execRdreg_next {s t : State} {idx : BitVec 8} (h : execRdreg idx s = .next t) :
    RespondsAfter s (.rdreg idx) t := by
  unfold execRdreg at h
  split at h
  · exact respondsAfter_of_gated (.none _) h
  · exact respondsAfter_of_refuseIllegal _ h

theorem execCatget_next {s t : State} {idx : BitVec 8} (h : execCatget idx s = .next t) :
    RespondsAfter s (.catget idx) t := by
  unfold execCatget at h
  split at h
  · exact respondsAfter_of_gated (.none _) h
  · exact respondsAfter_of_refuseIllegal _ h

theorem execCatname_next {s t : State} {idx sub : BitVec 8} (h : execCatname idx sub s = .next t) :
    RespondsAfter s (.catname idx sub) t := by
  unfold execCatname at h
  split at h
  · split at h
    · exact respondsAfter_of_gated (.none _) h
    · exact respondsAfter_of_refuseIllegal _ h
  · exact respondsAfter_of_refuseIllegal _ h

theorem execTxinit_next {s t : State} {proto : BitVec 4} {volume : BitVec 8} {length : BitVec 12}
    (h : execTxinit proto volume length s = .next t) : RespondsAfter s (.txinit proto volume length) t := by
  refine respondsAfter_of_whenConfigured h fun hb => ?_
  split at hb
  · cases hb
  · rename_i pl rest hpop
    dsimp only at hb
    split at hb
    · exact respondsAfter_of_answer (.popped hpop) hb
    · rename_i p hvalid
      split at hb
      · exact respondsAfter_of_answer (.popped hpop) hb
      · rename_i enc henc
        exact respondsAfter_of_answer (.committed hpop hvalid henc) hb

theorem execTxsend_next {s t : State} (h : execTxsend s = .next t) : RespondsAfter s .txsend t := by
  refine respondsAfter_of_whenConfigured h fun hb => ?_
  split at hb
  · rename_i hdata
    exact respondsAfter_of_answer (.sent hdata) hb
  · exact respondsAfter_of_answer (.none _) hb

theorem execRxspec_next {s t : State} (h : execRxspec s = .next t) : RespondsAfter s .rxspec t := by
  refine respondsAfter_of_whenConfigured h fun hb => ?_
  split at hb
  · exact respondsAfter_of_answer .tookSpectrum hb
  · exact respondsAfter_of_answer (.none _) hb

/-- Everything a command can do when it answers a next state. -/
theorem exec_next {i : Instr} {s t : State} (h : exec i s = .next t) : RespondsAfter s i t := by
  cases i with
  | rdreg idx => exact execRdreg_next h
  | catget idx => exact execCatget_next h
  | catname idx sub => exact execCatname_next h
  | txinit proto volume length => exact execTxinit_next h
  | txsend => exact execTxsend_next h
  | txtake16 => exact respondsAfter_of_gated .tookSamples h
  | rxrecv => exact respondsAfter_of_gated (.received rfl) h
  | rxtake => exact respondsAfter_of_gated .tookPayload h
  | rxspec => exact execRxspec_next h
  | catlen | catdef | txhas | rxisrecv | rxisana | rxftr | rxfltr | rxfta | rxflta | rxproto | rxprotoid =>
    exact respondsAfter_of_gated (.none _) h

/-! ### What a command leaves alone -/

/-- Settles O12, by the effects a command can have (`exec_next`): none of them writes the configuration, and each stream is
written by its commands' effects only. -/
theorem configurationIsImmutable : Obligations.ConfigurationIsImmutable := by
  unfold Obligations.ConfigurationIsImmutable
  intro i s t h
  obtain ⟨u, status, value, he, rfl⟩ := exec_next h
  cases he <;> simp

/-! ### Transmit and receive state are disjoint -/

theorem exec_rxrecv_withTx {s t : State} (tx' : TxState) (h : exec .rxrecv s = .next t) :
    exec .rxrecv { s with tx := tx' } = .next { t with tx := tx' } := by
  obtain ⟨hc, rfl⟩ | ⟨hc, hb⟩ := whenConfigured_next h
  · exact whenConfigured_of_fault (s := { s with tx := tx' }) hc _
  · cases hb; exact whenConfigured_of_legal (s := { s with tx := tx' }) hc _

theorem exec_txsend_withRx {s t : State} (rx' : RxState) (h : exec .txsend s = .next t) :
    exec .txsend { s with rx := rx' } = .next { t with rx := rx' } := by
  obtain ⟨hc, rfl⟩ | ⟨hc, hb⟩ := whenConfigured_next h
  · exact whenConfigured_of_fault (s := { s with rx := rx' }) hc _
  · refine (whenConfigured_of_legal (s := { s with rx := rx' }) hc _).trans ?_
    split at hb
    · rename_i hdata; cases hb; exact if_pos hdata
    · rename_i hdata; cases hb; exact if_neg hdata

/-- What `TXINIT` decides on, its bytes, its operands and the codeword, holds nothing of the receive state. -/
theorem exec_txinit_withRx {s t : State} {proto : BitVec 4} {volume : BitVec 8} {length : BitVec 12} (rx' : RxState)
    (h : exec (.txinit proto volume length) s = .next t) :
    exec (.txinit proto volume length) { s with rx := rx' } = .next { t with rx := rx' } := by
  obtain ⟨hc, rfl⟩ | ⟨hc, hb⟩ := whenConfigured_next h
  · exact whenConfigured_of_fault (s := { s with rx := rx' }) hc _
  · refine (whenConfigured_of_legal (s := { s with rx := rx' }) hc _).trans ?_
    dsimp only
    cases hpop : popBytes s.io.hdi length.toNat with
    | none => rw [hpop] at hb; cases hb
    | some popped =>
      rw [hpop] at hb
      dsimp only at hb ⊢
      cases hvalid : initValid s.cfg length.toNat proto.toNat volume.toNat with
      | none => rw [hvalid] at hb; cases hb; rfl
      | some p =>
        rw [hvalid] at hb
        dsimp only at hb ⊢
        cases henc : fecEncode (eccCode s.prims.ecc) popped.1 length.toNat (bytesPerGroup p) with
        | none => rw [henc] at hb; cases hb; rfl
        | some enc => rw [henc] at hb; cases hb; rfl

/-- Settles O13: the effects of a command write one half of the state (`exec_next`), and the commands that work on a half answer
the same with the other half replaced. -/
theorem transmitAndReceiveAreDisjoint : Obligations.TransmitAndReceiveAreDisjoint := by
  unfold Obligations.TransmitAndReceiveAreDisjoint
  refine ⟨fun i s t h => ?_, fun _ _ tx' h => exec_rxrecv_withTx tx' h, fun _ _ rx' h => exec_txsend_withRx rx' h,
    fun _ _ rx' _ _ _ h => exec_txinit_withRx rx' h⟩
  obtain ⟨u, status, value, he, rfl⟩ := exec_next h
  cases he <;> simp

/-! ### The answer while `cfgFault` is 1 -/

theorem refuseIllegal_of_fault {s : State} (hc : s.cfg.cfgFault = true) : refuseIllegal s = .next s.answeredCfgFault :=
  whenConfigured_of_fault hc _

theorem exec_of_fault {s : State} (hc : s.cfg.cfgFault = true) (i : Instr) : exec i s = .next s.answeredCfgFault := by
  cases i with
  | rdreg idx =>
    change execRdreg idx s = _
    unfold execRdreg
    split <;> exact whenConfigured_of_fault hc _
  | catget idx =>
    change execCatget idx s = _
    unfold execCatget
    split <;> exact whenConfigured_of_fault hc _
  | catname idx sub =>
    change execCatname idx sub s = _
    unfold execCatname
    split
    · split <;> exact whenConfigured_of_fault hc _
    · exact refuseIllegal_of_fault hc
  | catlen | catdef | txinit | txsend | txhas | txtake16 | rxrecv | rxisrecv | rxisana | rxftr | rxfltr | rxfta | rxflta
    | rxtake | rxproto | rxprotoid | rxspec => exact whenConfigured_of_fault hc _

/-- Settles O7: whether the word decodes or not, what runs is gated by `cfgFault` first. -/
theorem configFaultAnswersEveryWord : Obligations.ConfigFaultAnswersEveryWord := by
  unfold Obligations.ConfigFaultAnswersEveryWord
  intro s w rest hr hc hcmd
  cases hd : decode w with
  | error e => rw [step_of_not_decodes hr hcmd hd]; exact refuseIllegal_of_fault hc
  | ok i => rw [step_of_decodes hr hcmd hd]; exact exec_of_fault (s := { s with io := { s.io with cmd := rest } }) hc i

end Sys2Proof.Machine
end

section
/-! PROOFS of the family `10_state.md`, part 2: reset (O10, O11), and what a legal configuration says of the latched
registers. -/

namespace Sys2Proof.Machine

open Sys2Proof.Config

/-! ### Legal configurations -/

theorem sampleSize_eq_two_iff {b : BitVec 3} : b = 2 ↔ b.toNat = 2 := by rw [← BitVec.toNat_inj]; rfl

theorem sampleSize_eq_four_iff {b : BitVec 3} : b = 4 ↔ b.toNat = 4 := by rw [← BitVec.toNat_inj]; rfl

/-- The seven conditions of R251. -/
theorem legalConfig_iff {p : Straps} :
    legalConfig p = true ↔
      1 ≤ p.srIn.toNat ∧ 1 ≤ p.srOut.toNat ∧ (1 ≤ p.spf.toNat ∧ p.spf.toNat ≤ 1024) ∧
      (p.ssIn.toNat = 2 ∨ p.ssIn.toNat = 4) ∧ (p.ssOut.toNat = 2 ∨ p.ssOut.toNat = 4) ∧
      p.spf.toNat * p.srOut.toNat % p.srIn.toNat = 0 ∧
      1 ≤ p.spf.toNat * p.srOut.toNat / p.srIn.toNat ∧ p.spf.toNat * p.srOut.toNat / p.srIn.toNat ≤ 4096 := by
  simp only [legalConfig, Bool.and_eq_true, Bool.or_eq_true, decide_eq_true_eq, beq_iff_eq,
    sampleSize_eq_two_iff, sampleSize_eq_four_iff, and_assoc]
  rfl

@[simp] theorem CfgState.cfgFault_afterReset (p : Straps) : (CfgState.afterReset p).cfgFault = !legalConfig p := rfl

theorem cfgInv_afterReset (p : Straps) : CfgInv (CfgState.afterReset p) := rfl

/-- The registers reset writes from legal straps, with the constants and formulas of R22 written out. -/
theorem CfgState.afterReset_of_legal {p : Straps} (h : legalConfig p = true) :
    CfgState.afterReset p =
      { srIn := p.srIn, srOut := p.srOut, spf := p.spf, ssIn := p.ssIn, ssOut := p.ssOut
        hzPerBin := BitVec.ofNat 32 (min (2 ^ 32 - 1) (p.srIn.toNat * 65536 / p.spf.toNat))
        freqDeltaBin := 2
        freqDeltaHz := BitVec.ofNat 32 (min (2 ^ 32 - 1) (2 * p.srIn.toNat * 65536 / p.spf.toNat))
        nBitsInMarker := 16
        nMarkerFrames := 16
        nPostMarkerFrames := 0
        encDataOffset := 8
        txSpf := BitVec.ofNat 13 (p.spf.toNat * p.srOut.toNat / p.srIn.toNat)
        nBins := BitVec.ofNat 10 (p.spf.toNat / 2 + 1)
        cfgFault := false } := by
  simp only [CfgState.afterReset, h, if_true]
  rfl

/-- Settles O10: the step is the reset (`step_of_reset`), the registers are those of `afterReset_of_legal`, and R46's table is
the model's reset state with the capacities written out. -/
theorem resetWithLegalStraps : Obligations.ResetWithLegalStraps := by
  unfold Obligations.ResetWithLegalStraps
  intro s p hr hp
  rw [step_of_reset hr, State.afterReset, CfgState.afterReset_of_legal hp]
  rfl

/-- Settles O11: reset latches the straps, and `cfgFault` is the negation of `legalConfig`, whose conditions `legalConfig_iff`
lists. -/
theorem cfgFaultExactlyOnIllegalStraps : Obligations.CfgFaultExactlyOnIllegalStraps := by
  unfold Obligations.CfgFaultExactlyOnIllegalStraps
  intro s p hr
  refine ⟨State.afterReset s.prims p, step_of_reset hr, rfl, rfl, ?_⟩
  rw [← legalConfig_iff]
  simp [State.afterReset]

/-! ### What the configuration invariant gives when `cfgFault = 0` -/

section
variable {c : CfgState} (hinv : CfgInv c) (hc : c.cfgFault = false)
include hinv hc

theorem CfgInv.legal : legalConfig c.straps = true := by
  rw [hinv, CfgState.cfgFault_afterReset] at hc
  simpa using hc

/-- `NBINS` (R22) fits its register. -/
theorem CfgInv.nBins_eq : c.nBins.toNat = c.spf.toNat / 2 + 1 := by
  have hp := hinv.legal hc
  obtain ⟨-, -, ⟨-, hspf⟩, -⟩ := legalConfig_iff.mp hp
  have hspf : c.spf.toNat ≤ 1024 := hspf
  rw [hinv, CfgState.afterReset_of_legal hp]
  simp only [CfgState.straps, BitVec.toNat_ofNat]
  omega

/-- `L` is at most `TXSPF_MAX` (R251 (g)). -/
theorem CfgInv.txSpf_le : c.txSpf.toNat ≤ txSpfMax := by
  have hp := hinv.legal hc
  obtain ⟨-, -, -, -, -, -, -, hl⟩ := legalConfig_iff.mp hp
  rw [hinv, CfgState.afterReset_of_legal hp]
  exact (BitVec.toNat_ofNat ..).trans_le ((Nat.mod_le ..).trans hl)

/-- `FB` is at most 4096 (R251 (c), (d)). -/
theorem CfgInv.frameSize_le : frameSize c ≤ 4096 := by
  obtain ⟨-, -, ⟨-, hspf⟩, hss, -⟩ := legalConfig_iff.mp (hinv.legal hc)
  have hss : c.ssIn.toNat ≤ 4 := by rcases hss with h | h <;> exact h.trans_le (by decide)
  exact Nat.mul_le_mul hspf hss

theorem CfgInv.frameSize_pos : 0 < frameSize c := by
  obtain ⟨-, -, ⟨hspf, -⟩, hss, -⟩ := legalConfig_iff.mp (hinv.legal hc)
  have hss : 0 < c.ssIn.toNat := by rcases hss with h | h <;> exact h.symm ▸ (by decide)
  exact Nat.mul_pos hspf hss

end

end Sys2Proof.Machine
end

section
/-! PROOFS of the family `10_state.md`, part 3: the transmit invariant is kept by `TXINIT`'s commit, `TXSEND` and `TXTAKE16`. -/

namespace Sys2Proof.Machine

open Sys2Proof.Config

/-! ### Sizes of the encoded stream (R115 to R118) -/

theorem flatMap_length_const {α β : Type} (l : List α) (f : α → List β) (n : Nat) (h : ∀ a ∈ l, (f a).length = n) :
    (l.flatMap f).length = l.length * n := by
  rw [List.length_flatMap, List.map_congr_left h, List.map_const', List.sum_replicate, smul_eq_mul]

theorem framedPayload_length {pl : List Byte} {len : Nat} (k : Nat) (h : pl.length = len)
    (hk : len + 1 ≤ nBlocks len k * k) : (framedPayload pl len k).length = nBlocks len k * k := by
  simp [framedPayload, h]; omega

theorem piece_length {l : List Byte} {i k n : Nat} (hl : l.length = n * k) (hi : i < n) : (piece l i k).length = k := by
  have : i * k + k ≤ n * k := by rw [← Nat.succ_mul]; exact Nat.mul_le_mul_right k hi
  simp [piece, hl]; omega

/-- Every block has `K` bytes of the framed payload and three parity bytes. -/
theorem fecEncode_length {b : Config.EccBinding} {pl enc : List Byte} {len k : Nat} (hpl : pl.length = len)
    (hk : len + 1 ≤ nBlocks len k * k) (h : fecEncode (eccCode b) pl len k = some enc) : enc.length = encLen len k := by
  unfold fecEncode at h
  split at h
  · cases h
    rw [flatMap_length_const _ _ (k + eccParity), List.length_range, encLen]
    intro i hi
    rw [EccCode.codeword, List.length_append, eccCode_enc_length,
      piece_length (framedPayload_length k hpl hk) (List.mem_range.mp hi)]
  · cases h

theorem nBlocks_three (len : Nat) : nBlocks len 3 = (len + 3) / 3 := rfl

theorem encLen_three (len : Nat) : encLen len 3 = (len + 3) / 3 * 6 := rfl

theorem nGroups_three (len : Nat) : nGroups len 3 = (len + 3) / 3 * 2 := by
  have : nGroups len 3 = ((len + 3) / 3 * 6 + 2) / 3 := rfl
  omega

/-! ### Samples of a unit (R145, R148, R153) -/

theorem preamble_length (l : Nat) (p : ProtoId) (vol : Nat) : (preamble l p vol).length = 16 * l := by
  simp [preamble, copies_length, nMarkerFrames, nPostMarkerFrames]

theorem dataGroup_length (l : Nat) (tx : TxState) (p : ProtoId) (g vol : Nat) :
    (dataGroup l tx p g vol).length = framesPerGroup p * l := by
  simp [dataGroup, copies_length]

/-- A unit has at most 16 frames. -/
theorem unitSamples_length_le (l : Nat) (tx : TxState) : (unitSamples l tx).length ≤ 16 * l := by
  unfold unitSamples
  split
  · exact (preamble_length ..).le
  · rw [dataGroup_length]
    exact Nat.mul_le_mul_right l ((framesPerGroup_bounds _).2.trans (by decide))

/-! ### The transmit invariant -/

theorem txInv_afterReset (cfg : CfgState) : TxInv cfg TxState.afterReset where
  payload_length := List.length_replicate
  enc_length := List.length_replicate
  out_length := List.length_replicate
  len_le := Nat.zero_le _
  volume_le := Nat.zero_le _
  outCount_le := Nat.zero_le _
  taken_or_whole := .inl rfl
  sending := fun h => absurd h (by decide)
  idle := fun _ => .inl ⟨rfl, rfl, rfl⟩

variable {cfg : CfgState} {tx : TxState}

/-- R143, R144: the buffers have room for the payload and the stream, and the counters hold what the stream's sizes say. -/
theorem TxInv.commitInit (h : TxInv cfg tx) {b : Config.EccBinding} {p : ProtoId} {length proto volume : Nat}
    {pl enc : List Byte} (hpl : pl.length = length) (hv : initValid cfg length proto volume = some p)
    (henc : fecEncode (eccCode b) pl length (bytesPerGroup p) = some enc) :
    TxInv cfg (commitInit tx p volume length pl enc) := by
  obtain ⟨hlen, -, hok, hvol⟩ := initValid_eq_some hv
  obtain ⟨hlen1, hlen2⟩ := lengthOk_iff.mp hlen
  have hvol : volume ≤ 100 := hvol
  rw [bytesPerGroup_eq] at henc
  have hencLen : enc.length = encLen length 3 := fecEncode_length hpl (by rw [nBlocks_three]; omega) henc
  have hgroups : ceilDiv enc.length 3 = nGroups length 3 := by rw [hencLen]; rfl
  have hlenReg : (BitVec.ofNat 8 length).toNat = length := Nat.mod_eq_of_lt (by omega)
  exact
    { payload_length := by
        rw [commitInit_payload, overwrite_length _ _ _ (by rw [h.payload_length, hpl, maxDataSize]; omega), h.payload_length]
      enc_length := by
        rw [commitInit_enc, overwrite_length _ _ _ (by rw [h.enc_length, hencLen, encLen_three, rxEncCap]; omega),
          h.enc_length]
      out_length := h.out_length
      len_le := hlenReg.trans_le hlen2
      volume_le := (Nat.mod_le ..).trans hvol
      outCount_le := Nat.zero_le _
      taken_or_whole := .inl rfl
      sending := fun _ => by
        simp only [commitInit_unit, commitInit_groups, commitInit_len, commitInit_protocolId, commitInit_encLen,
          bytesPerGroup_eq, hlenReg, hgroups]
        refine ⟨Nat.zero_le _, hlen1, hok, ?_, ?_⟩
        · rw [hencLen, encLen_three]; exact Nat.mod_eq_of_lt (by omega)
        · rw [nGroups_three]; exact Nat.mod_eq_of_lt (by omega)
      idle := fun hd => by cases hd }

/-- R145, R147: `txUnit` stays within the units of the transmission, and ends it one past them. -/
theorem TxInv.advanceUnit (h : TxInv cfg tx) {smp : List I16} (hd : tx.hasData = true) (hsmp : smp.length ≤ txOutCap) :
    TxInv cfg (advanceUnit tx smp) := by
  obtain ⟨hunit, hlen, hok, hencLen, hgroups⟩ := h.sending hd
  have hlen2 : tx.len.toNat ≤ 140 := h.len_le
  have hbound : tx.groups.toNat ≤ 94 := by rw [hgroups, bytesPerGroup_eq, nGroups_three]; omega
  have hnext : (tx.unit + 1).toNat = tx.unit.toNat + 1 := by rw [BitVec.toNat_add]; exact Nat.mod_eq_of_lt (by simp; omega)
  exact
    { h with
      out_length := by
        rw [advanceUnit_out, overwrite_length _ _ _ (by rw [h.out_length]; omega), h.out_length]
      outCount_le := (Nat.mod_le ..).trans hsmp
      taken_or_whole := .inr rfl
      sending := fun hs => by
        rw [advanceUnit_hasData] at hs
        split at hs
        · cases hs
        · rename_i hlast
          have hmore : tx.unit.toNat + 1 ≤ tx.groups.toNat := by omega
          exact ⟨hnext.trans_le hmore, hlen, hok, hencLen, hgroups⟩
      idle := fun hs => by
        rw [advanceUnit_hasData] at hs
        split at hs
        · rename_i hlast
          exact .inr (hnext.trans hlast)
        · rw [hd] at hs; cases hs }

theorem TxInv.takeSamples (h : TxInv cfg tx) : TxInv cfg { tx with amp16Count := 0 } :=
  { h with taken_or_whole := .inl rfl }

end Sys2Proof.Machine
end

section
/-! PROOFS of the family `10_state.md`, part 4: the receive invariant under the ring update of R131 and R132. -/

namespace Sys2Proof.Machine

open Sys2Proof.Config

/-! ### The sums of the ring, bin by bin -/

theorem evict_getD {sum : List (BitVec 34)} {old : List Mag} {k : Nat} (hs : k < sum.length) (ho : k < old.length) :
    (evict sum old).getD k 0 = sum.getD k 0 - (old.getD k 0).setWidth 34 := by
  simp [evict, List.getD_eq_getElem?_getD, hs, ho]

theorem addSpectrum_getD {sum : List (BitVec 34)} {m : List Mag} {k : Nat} (hs : k < sum.length) (hm : k < m.length) :
    (addSpectrum sum m).getD k 0 = sum.getD k 0 + (m.getD k 0).setWidth 34 := by
  simp [addSpectrum, List.getD_eq_getElem?_getD, hs, hm]

/-- Bin `k` of ring slot `i`. -/
def slotMag (buf : List (List Mag)) (k i : Nat) : Nat := ((buf.getD i []).getD k 0).toNat

theorem ringSum_eq (rx : RxState) (k : Nat) :
    ringSum rx k = ∑ i ∈ Finset.range rx.histCount.toNat, slotMag rx.histBuf k i := rfl

theorem slotMag_lt (buf : List (List Mag)) (k i : Nat) : slotMag buf k i < 2 ^ 32 := ((buf.getD i []).getD k 0).isLt

theorem slotMag_set {buf : List (List Mag)} {head : Nat} (h : head < buf.length) (m : List Mag) (k i : Nat) :
    slotMag (buf.set head m) k i = if i = head then (m.getD k 0).toNat else slotMag buf k i := by
  unfold slotMag
  simp only [List.getD_eq_getElem?_getD, List.getElem?_set, eq_comm (a := head)]
  split
  · simp
  · rfl

/-- The sum over a full ring fits 34 bits (R34). -/
theorem ringSum_lt {rx : RxState} (h : rx.histCount.toNat ≤ 4) (k : Nat) : ringSum rx k < 2 ^ 34 := by
  have hle : ringSum rx k ≤ rx.histCount.toNat * (2 ^ 32 - 1) := by
    rw [ringSum_eq]
    refine (Finset.sum_le_card_nsmul _ _ (2 ^ 32 - 1) fun i _ => Nat.le_pred_of_lt (slotMag_lt ..)).trans ?_
    simp
  omega

/-- `ANALYZE` replaces the slot at the head. -/
theorem sum_slotMag_set {buf : List (List Mag)} {head n : Nat} (h : head < buf.length) (hn : head < n) (m : List Mag)
    (k : Nat) :
    (∑ i ∈ Finset.range n, slotMag (buf.set head m) k i) + slotMag buf k head =
      (∑ i ∈ Finset.range n, slotMag buf k i) + (m.getD k 0).toNat := by
  have hmem : head ∈ Finset.range n := Finset.mem_range.mpr hn
  have hrest : ∑ i ∈ (Finset.range n).erase head, slotMag (buf.set head m) k i =
      ∑ i ∈ (Finset.range n).erase head, slotMag buf k i :=
    Finset.sum_congr rfl fun i hi => by rw [slotMag_set h, if_neg (Finset.ne_of_mem_erase hi)]
  rw [← Finset.add_sum_erase _ _ hmem, ← Finset.add_sum_erase _ (slotMag buf k) hmem, hrest, slotMag_set h, if_pos rfl]
  omega

/-! ### `ANALYZE` keeps the receive invariant -/

theorem histCount_analyze_of_full {rx : RxState} (m : List Mag) (hc : rx.histCount.toNat = 4) :
    (analyze m rx).histCount = rx.histCount := by
  rw [analyze_histCount]
  exact if_pos hc

theorem histCount_analyze_of_lt {rx : RxState} (m : List Mag) (hc : rx.histCount.toNat < 4) :
    (analyze m rx).histCount.toNat = rx.histCount.toNat + 1 := by
  have hne : rx.histCount.toNat ≠ maxSpectrumHistory := Nat.ne_of_lt hc
  rw [analyze_histCount, if_neg hne, BitVec.toNat_add]
  exact Nat.mod_eq_of_lt (by simp; omega)

theorem histSum_analyze_of_full {rx : RxState} (m : List Mag) (hc : rx.histCount.toNat = 4) :
    (analyze m rx).histSum = addSpectrum (evict rx.histSum (rx.histBuf.getD rx.histHead.toNat [])) m :=
  congrArg (addSpectrum · m) (if_pos hc)

theorem histSum_analyze_of_lt {rx : RxState} (m : List Mag) (hc : rx.histCount.toNat < 4) :
    (analyze m rx).histSum = addSpectrum rx.histSum m :=
  congrArg (addSpectrum · m) (if_neg (Nat.ne_of_lt hc))

section
variable {cfg : CfgState} {rx : RxState} {m : List Mag} (h : RxInv cfg rx)
include h

theorem RxInv.full_or_filling : rx.histCount.toNat = 4 ∨ rx.histCount.toNat < 4 :=
  h.histCount_le.eq_or_lt

theorem RxInv.histHead_lt : rx.histHead.toNat < rx.histBuf.length := by
  rw [h.histBuf_length]; exact rx.histHead.isLt

/-- While the ring fills, its head is the first free slot. -/
theorem RxInv.ringSum_analyze_filling (hc : rx.histCount.toNat < 4) (k : Nat) :
    ringSum (analyze m rx) k = ringSum rx k + (m.getD k 0).toNat := by
  have hhead : rx.histHead.toNat = rx.histCount.toNat := h.filling hc
  have hset := sum_slotMag_set h.histHead_lt (by omega : rx.histHead.toNat < rx.histCount.toNat + 1) m k
  rw [Finset.sum_range_succ (slotMag rx.histBuf k), ← hhead] at hset
  rw [ringSum_eq, ringSum_eq, histCount_analyze_of_lt m hc, analyze_histBuf, ← hhead]
  omega

/-- In a full ring the head is the slot that is evicted. -/
theorem RxInv.ringSum_analyze_full (hc : rx.histCount.toNat = 4) (k : Nat) :
    ringSum (analyze m rx) k + slotMag rx.histBuf k rx.histHead.toNat = ringSum rx k + (m.getD k 0).toNat := by
  have hset := sum_slotMag_set h.histHead_lt (by rw [hc]; exact rx.histHead.isLt : rx.histHead.toNat < rx.histCount.toNat) m k
  rwa [ringSum_eq, ringSum_eq, histCount_analyze_of_full m hc, analyze_histBuf]

theorem RxInv.histCount_analyze_le : (analyze m rx).histCount.toNat ≤ 4 := by
  obtain hc | hc := h.full_or_filling
  · rw [histCount_analyze_of_full m hc, hc]
  · rw [histCount_analyze_of_lt m hc]; exact hc

theorem RxInv.histHead_slot_length : (rx.histBuf.getD rx.histHead.toNat []).length = cfg.nBins.toNat := by
  rw [List.getD_eq_getElem _ _ h.histHead_lt]
  exact h.slot_length _ (List.getElem_mem _)

/-- R131: the running sums stay those of the ring; nothing wraps, since the new sum fits. -/
theorem RxInv.histSum_analyze (hm : m.length = cfg.nBins.toNat) {k : Nat} (hk : k < cfg.nBins.toNat) :
    ((analyze m rx).histSum.getD k 0).toNat = ringSum (analyze m rx) k := by
  have hlt := ringSum_lt (h.histCount_analyze_le (m := m)) k
  have hsum := h.histSum_eq k hk
  have hs : k < rx.histSum.length := by rw [h.histSum_length]; exact hk
  have hmk : k < m.length := by rw [hm]; exact hk
  have hmag : (m.getD k 0).toNat < 2 ^ 32 := (m.getD k 0).isLt
  obtain hc | hc := h.full_or_filling
  · have hnew := h.ringSum_analyze_full (m := m) hc k
    have ho : k < (rx.histBuf.getD rx.histHead.toNat []).length := by rw [h.histHead_slot_length]; exact hk
    rw [histSum_analyze_of_full m hc, addSpectrum_getD (by rw [evict_length]; exact lt_min hs ho) hmk, evict_getD hs ho]
    unfold slotMag at hnew
    simp only [BitVec.toNat_add, BitVec.toNat_sub, BitVec.toNat_setWidth, hsum]
    omega
  · have hnew := h.ringSum_analyze_filling (m := m) hc k
    rw [histSum_analyze_of_lt m hc, addSpectrum_getD hs hmk]
    simp only [BitVec.toNat_add, BitVec.toNat_setWidth, hsum]
    omega

theorem RxInv.histSum_analyze_length (hm : m.length = cfg.nBins.toNat) :
    (analyze m rx).histSum.length = cfg.nBins.toNat := by
  obtain hc | hc := h.full_or_filling
  · rw [histSum_analyze_of_full m hc, addSpectrum_length, evict_length, h.histSum_length, h.histHead_slot_length, hm,
      min_self, min_self]
  · rw [histSum_analyze_of_lt m hc, addSpectrum_length, h.histSum_length, hm, min_self]

theorem RxInv.filling_analyze (hlt : (analyze m rx).histCount.toNat < 4) :
    (analyze m rx).histHead.toNat = (analyze m rx).histCount.toNat := by
  obtain hc | hc := h.full_or_filling
  · rw [histCount_analyze_of_full m hc, hc] at hlt
    exact absurd hlt (lt_irrefl 4)
  · rw [histCount_analyze_of_lt m hc] at hlt ⊢
    rw [analyze_histHead, BitVec.toNat_add, h.filling hc]
    exact Nat.mod_eq_of_lt hlt

/-- R131, R132: `ANALYZE` writes the ring and the published spectrum only, and keeps what the invariant says of them. -/
theorem RxInv.analyze (hm : m.length = cfg.nBins.toNat) : RxInv cfg (analyze m rx) :=
  { h with
    spec_length := hm
    histBuf_length := (List.length_set ..).trans h.histBuf_length
    slot_length := fun l hl => by
      obtain hl | rfl := List.mem_or_eq_of_mem_set hl
      · exact h.slot_length l hl
      · exact hm
    histSum_length := h.histSum_analyze_length hm
    histCount_le := h.histCount_analyze_le
    filling := h.filling_analyze
    histSum_eq := fun _ hk => h.histSum_analyze hm hk }

end

end Sys2Proof.Machine
end

section
/-! PROOFS of the family `10_state.md`, part 5: the receive invariant taken apart (what holds in both states of the receive
machine, and what a reception adds), and kept by each operation of Machine/Receive.lean. -/

namespace Sys2Proof.Machine

open Sys2Proof.Config

/-! ### The parts of the receive invariant -/

/-- What the receive invariant says of the buffers, the ring and the payload: the part that does not look at the state of the
receive machine (R31, R33, R34, R37 to R40). -/
structure RxStores (cfg : CfgState) (rx : RxState) : Prop where
  framesToAnalyze_eq : rx.framesToAnalyze.toNat = framesToAnalyze
  recorded_le : rx.recorded.length ≤ maxRecordedFrames
  spec_length : rx.spec.length = cfg.nBins.toNat
  histBuf_length : rx.histBuf.length = maxSpectrumHistory
  slot_length : ∀ l ∈ rx.histBuf, l.length = cfg.nBins.toNat
  histSum_length : rx.histSum.length = cfg.nBins.toNat
  histCount_le : rx.histCount.toNat ≤ maxSpectrumHistory
  filling : rx.histCount.toNat < maxSpectrumHistory → rx.histHead.toNat = rx.histCount.toNat
  histSum_eq : ∀ k, k < cfg.nBins.toNat → (rx.histSum.getD k 0).toNat = ringSum rx k
  frameBytes_length : rx.frameBytes.length = frameSize cfg
  frameFill_lt : rx.frameFill.toNat < frameSize cfg
  accOn_length : rx.accOn.length = maxDataBits
  accNf_length : rx.accNf.length = maxDataBits
  enc_length : rx.enc.length = rxEncCap
  data_length : rx.data.length = maxDataSize
  new_payload : rx.rxNew = true → minLength ≤ rx.dataLength.toNat ∧ rx.dataLength.toNat ≤ maxLength
  no_payload : rx.rxNew = false → rx.dataLength = 0

/-- A reception in which `r` frames have been recorded, the accumulators apart; within one step none may be left (R180). -/
structure Recording (cfg : CfgState) (rx : RxState) (r : Nat) : Prop where
  analyzing_eq : rx.analyzing = false
  receiving_eq : rx.receiving = true
  framesLeftToAnalyze_eq : rx.framesLeftToAnalyze = 0
  cand_eq : rx.cand = none
  usable : protoOk cfg rx.curProto = true
  count : r + rx.framesLeftToRecord.toNat = rx.framesToRecord.toNat
  framesToRecord_le : rx.framesToRecord.toNat ≤ longestRecording rx.curProto
  recorded_length : rx.recorded.length = r
  provisional : r < encDataOffset + (headerGroup (bytesPerGroup rx.curProto) + 1) * framesPerGroup rx.curProto →
    rx.framesToRecord.toNat = longestRecording rx.curProto

/-- No accumulator holds more than `n` frames can have added (R38). -/
def AccBound (rx : RxState) (n : Nat) : Prop :=
  ∀ b, (rx.accOn.getD b 0).toNat ≤ n * 2 ^ 34 ∧ (rx.accNf.getD b 0).toNat ≤ n * 2 ^ 34

section
variable {cfg : CfgState} {rx : RxState} {r : Nat}

theorem RxInv.stores (h : RxInv cfg rx) : RxStores cfg rx := { h with }

theorem Recording.recordedIndex_eq (h : Recording cfg rx r) : recordedIndex rx = r := by
  rw [recordedIndex, ← h.count, Nat.add_sub_cancel]

theorem RxInv.recording (h : RxInv cfg rx) (hr : rx.receiving = true) : Recording cfg rx (recordedIndex rx) := by
  obtain ⟨hla, hcand, hok, -, hle, hlong, hrec⟩ := h.receiving_counters hr
  exact
    { analyzing_eq := by simpa [hr] using h.exclusive
      receiving_eq := hr
      framesLeftToAnalyze_eq := hla
      cand_eq := hcand
      usable := hok
      count := Nat.sub_add_cancel hle
      framesToRecord_le := hlong
      recorded_length := hrec
      provisional := h.provisional hr }

theorem RxInv.accBound (h : RxInv cfg rx) (hr : rx.receiving = true) : AccBound rx (framesIntoGroup rx) :=
  h.acc_bound hr

theorem RxInv.of_recording (hs : RxStores cfg rx) (h : Recording cfg rx r) (hleft : rx.framesLeftToRecord ≠ 0)
    (hacc : AccBound rx ((r - encDataOffset) % framesPerGroup rx.curProto)) : RxInv cfg rx := by
  have hi := h.recordedIndex_eq
  have hpos : 1 ≤ rx.framesLeftToRecord.toNat :=
    Nat.one_le_iff_ne_zero.mpr fun h0 => hleft (BitVec.eq_of_toNat_eq h0)
  exact
    { hs with
      exclusive := by rw [h.receiving_eq, h.analyzing_eq]; rfl
      analyzing_counters := fun ha => by rw [h.analyzing_eq] at ha; cases ha
      receiving_counters := fun _ =>
        ⟨h.framesLeftToAnalyze_eq, h.cand_eq, h.usable, hpos, h.count ▸ Nat.le_add_left .., h.framesToRecord_le,
          h.recorded_length.trans hi.symm⟩
      provisional := fun _ => hi.symm ▸ h.provisional
      acc_bound := fun _ => by rw [framesIntoGroup, hi]; exact hacc }

theorem RxInv.of_analyzing (hs : RxStores cfg rx) (ha : rx.analyzing = true) (hr : rx.receiving = false)
    (hcount : 1 ≤ rx.framesLeftToAnalyze.toNat ∧ rx.framesLeftToAnalyze.toNat ≤ framesToAnalyze ∧
      rx.framesToRecord = 0 ∧ rx.framesLeftToRecord = 0 ∧
      (rx.cand = none ↔ rx.framesLeftToAnalyze = rx.framesToAnalyze)) : RxInv cfg rx :=
  { hs with
    exclusive := by rw [ha, hr]; rfl
    analyzing_counters := fun _ => hcount
    receiving_counters := fun h => by rw [hr] at h; cases h
    provisional := fun h => by rw [hr] at h; cases h
    acc_bound := fun h => by rw [hr] at h; cases h }

theorem RxInv.receiving_of_not_analyzing (h : RxInv cfg rx) (ha : rx.analyzing = false) : rx.receiving = true := by
  rw [h.exclusive, ha]; rfl

theorem RxInv.not_receiving_of_analyzing (h : RxInv cfg rx) (ha : rx.analyzing = true) : rx.receiving = false := by
  rw [h.exclusive, ha]; rfl

end

/-! ### Analyzing (R176 to R179) -/

theorem accBound_of_zero {rx : RxState} (hon : rx.accOn = List.replicate maxDataBits 0)
    (hnf : rx.accNf = List.replicate maxDataBits 0) (n : Nat) : AccBound rx n := by
  have hz : ∀ b, ((List.replicate maxDataBits (0 : BitVec 64)).getD b 0).toNat ≤ n * 2 ^ 34 := fun b => by
    rw [List.getD_eq_getElem?_getD, List.getElem?_replicate]
    split <;> exact Nat.zero_le _
  intro b
  rw [hon, hnf]
  exact ⟨hz b, hz b⟩

theorem longestRecording_le (p : ProtoId) : longestRecording p ≤ 1024 := by
  have := (framesPerGroup_bounds p).2
  rw [longestRecording_eq]; omega

section
variable {cfg : CfgState} {rx : RxState}

/-- A reception starts with nothing recorded and the provisional duration (R179). -/
theorem recording_startReceiving {p : ProtoId} (hok : protoOk cfg p = true) (hleft : rx.framesLeftToAnalyze = 0) :
    Recording cfg (startReceiving rx p) 0 := by
  have hlong : (BitVec.ofNat 11 (longestRecording p)).toNat = longestRecording p :=
    Nat.mod_eq_of_lt ((longestRecording_le p).trans_lt (by decide))
  exact
    { analyzing_eq := rfl
      receiving_eq := rfl
      framesLeftToAnalyze_eq := hleft
      cand_eq := rfl
      usable := hok
      count := Nat.zero_add _
      framesToRecord_le := hlong.le
      recorded_length := rfl
      provisional := fun _ => hlong }

theorem RxStores.startReceiving (h : RxStores cfg rx) (p : ProtoId) : RxStores cfg (startReceiving rx p) :=
  { h with
    recorded_le := Nat.zero_le _
    accOn_length := List.length_replicate
    accNf_length := List.length_replicate
    enc_length := List.length_replicate }

theorem rxInv_startReceiving {p : ProtoId} (h : RxStores cfg rx) (hok : protoOk cfg p = true)
    (hleft : rx.framesLeftToAnalyze = 0) : RxInv cfg (startReceiving rx p) := by
  refine .of_recording (h.startReceiving p) (recording_startReceiving hok hleft) ?_ (accBound_of_zero rfl rfl _)
  exact (by decide : ∀ p : ProtoId, BitVec.ofNat 11 (longestRecording p) ≠ 0) p

theorem toNat_sub_one {a : BitVec 11} (h : 1 ≤ a.toNat) : (a - 1).toNat = a.toNat - 1 := BitVec.toNat_sub_of_le h

/-- Every detecting frame takes one off a counter in `1 .. 8`: off the run's, or off a fresh one (R177, R178). -/
theorem RxInv.countDetection_lt (h : RxInv cfg rx) (ha : rx.analyzing = true) (d : ProtoId) :
    (countDetection rx d).toNat < 8 := by
  obtain ⟨h1, h8, -⟩ := h.analyzing_counters ha
  have h8 : rx.framesLeftToAnalyze.toNat ≤ 8 := h8
  have hfta : rx.framesToAnalyze.toNat = 8 := h.framesToAnalyze_eq
  unfold countDetection
  split <;> rw [toNat_sub_one (by omega)] <;> omega

/-- R176 to R179: a frame in Analyzing resets the run, counts on, or starts a reception. -/
theorem RxInv.analyzingStep (h : RxInv cfg rx) (ha : rx.analyzing = true) (m : List Mag) :
    RxInv cfg (analyzingStep cfg m rx) := by
  have hr := h.not_receiving_of_analyzing ha
  have hfta : rx.framesToAnalyze.toNat = 8 := h.framesToAnalyze_eq
  obtain ⟨-, -, hftr, hflr, -⟩ := h.analyzing_counters ha
  unfold Machine.analyzingStep
  split
  · refine .of_analyzing { h.stores with } ha hr ⟨?_, ?_, hftr, hflr, by simp⟩
    · exact hfta.symm ▸ (by decide)
    · exact hfta.le
  · rename_i d hd
    have hlt := h.countDetection_lt ha d
    dsimp only
    split
    · rename_i hleft
      exact rxInv_startReceiving { h.stores with } (detect_matches hd).1 hleft
    · rename_i hleft
      have hne : countDetection rx d ≠ rx.framesToAnalyze := fun he => by rw [he, hfta] at hlt; exact lt_irrefl 8 hlt
      refine .of_analyzing { h.stores with } ha hr ⟨?_, hlt.le, hftr, hflr, by simp [hne]⟩
      exact Nat.one_le_iff_ne_zero.mpr fun h0 => hleft (BitVec.eq_of_toNat_eq h0)

end

/-! ### Receiving: the accumulators (R181, R182) -/

/-- A spectrum's share of an on-accumulator is at most `2^34`. -/
theorem mag_mul_histCount_le {rx : RxState} (hc : rx.histCount.toNat ≤ 4) (v : Mag) :
    v.toNat * rx.histCount.toNat ≤ 2 ^ 34 :=
  (Nat.mul_le_mul (Nat.le_of_lt v.isLt) hc).trans (by decide)

theorem nfNum_le {rx : RxState} (hc : rx.histCount.toNat ≤ 4) (k : Nat) : nfNum rx k ≤ 2 ^ 34 :=
  max_le (BitVec.isLt _).le ((Nat.mul_le_mul_left squelch hc).trans (by decide))

/-- An accumulator after one frame's share `v`. -/
theorem acc_add_le {a : BitVec 64} {n v : Nat} (ha : a.toNat ≤ n * 2 ^ 34) (hv : v ≤ 2 ^ 34) :
    (a + BitVec.ofNat 64 v).toNat ≤ (n + 1) * 2 ^ 34 := by
  simp only [BitVec.toNat_add, BitVec.toNat_ofNat]
  omega

/-- A list of accumulators of which each gets at most one frame's share. -/
theorem mapIdx_acc_le {acc : List (BitVec 64)} {n s : Nat} {v : Nat → Nat}
    (ha : ∀ b, (acc.getD b 0).toNat ≤ n * 2 ^ 34) (hv : ∀ b, v b ≤ 2 ^ 34) (b : Nat) :
    ((acc.mapIdx fun b a => if b < s then a + BitVec.ofNat 64 (v b) else a).getD b 0).toNat ≤ (n + 1) * 2 ^ 34 := by
  have hab := ha b
  rw [List.getD_eq_getElem?_getD] at hab ⊢
  rw [List.getElem?_mapIdx]
  cases hb : acc[b]? with
  | none => exact Nat.zero_le _
  | some a =>
    rw [hb] at hab
    simp only [Option.map_some, Option.getD_some] at hab ⊢
    split
    · exact acc_add_le hab (hv b)
    · exact hab.trans (Nat.mul_le_mul_right _ (Nat.le_succ n))

theorem AccBound.accumulate {rx : RxState} {n : Nat} (h : AccBound rx n) (hc : rx.histCount.toNat ≤ 4)
    (p : ProtoId) (m : List Mag) (j : Nat) : AccBound (accumulate rx p m j) (n + 1) := by
  unfold Machine.accumulate
  split
  · intro b
    exact ⟨mapIdx_acc_le (fun b => (h b).1) (fun _ => mag_mul_histCount_le hc _) b,
      mapIdx_acc_le (fun b => (h b).2) (fun _ => nfNum_le hc _) b⟩
  · intro b
    obtain ⟨hon, hnf⟩ := h b
    omega

section
variable {cfg : CfgState} {rx : RxState} {r : Nat}

theorem RxStores.accumulate (h : RxStores cfg rx) (p : ProtoId) (m : List Mag) (j : Nat) :
    RxStores cfg (accumulate rx p m j) := by
  obtain ⟨heq, hon, hnf⟩ := accumulate_frame rx p m j
  rw [heq]
  exact { h with accOn_length := hon.trans h.accOn_length, accNf_length := hnf.trans h.accNf_length }

theorem Recording.accumulate (h : Recording cfg rx r) (p : ProtoId) (m : List Mag) (j : Nat) :
    Recording cfg (accumulate rx p m j) r := by
  rw [(accumulate_frame rx p m j).1]
  exact { h with }

theorem RxStores.decideGroup (h : RxStores cfg rx) {p : ProtoId} {g : Nat} (hg : g < 200) :
    RxStores cfg (decideGroup rx p g) :=
  { h with
    accOn_length := List.length_replicate
    accNf_length := List.length_replicate
    enc_length := by
      rw [decideGroup_enc, overwrite_length _ _ _ (by simp [bytesPerGroup_eq, h.enc_length, rxEncCap]; omega), h.enc_length] }

theorem Recording.decideGroup (h : Recording cfg rx r) (p : ProtoId) (g : Nat) : Recording cfg (decideGroup rx p g) r :=
  { h with }

/-! ### Receiving: the header refinement (R183) -/

theorem hdrCheck_lengthOk {c : EccCode} {enc : List Byte} {k len : Nat} (h : hdrCheck c enc k = some len) :
    1 ≤ len ∧ len ≤ 140 := by
  unfold hdrCheck at h
  split at h
  · cases h
  · dsimp only at h
    split at h
    · rename_i hok; cases h; exact lengthOk_iff.mp hok
    · cases h

/-- A stream of a legal length has the header's two groups, and no more than the longest one. -/
theorem recording_total_bounds (p : ProtoId) {len : Nat} (h1 : 1 ≤ len) (h140 : len ≤ 140) :
    encDataOffset + 2 * framesPerGroup p ≤ encDataOffset + nGroups len (bytesPerGroup p) * framesPerGroup p ∧
    encDataOffset + nGroups len (bytesPerGroup p) * framesPerGroup p ≤ longestRecording p := by
  have hg : 2 ≤ nGroups len 3 ∧ nGroups len 3 ≤ 94 := by rw [nGroups_three]; omega
  rw [bytesPerGroup_eq, longestRecording_eq]
  exact ⟨Nat.add_le_add_left (Nat.mul_le_mul_right _ hg.1) _, Nat.add_le_add_left (Nat.mul_le_mul_right _ hg.2) 8⟩

theorem RxStores.refineHeader (h : RxStores cfg rx) (c : EccCode) (p : ProtoId) (r : Nat) :
    RxStores cfg (refineHeader c rx p r) := by
  rw [refineHeader_frame]
  exact { h with }

theorem AccBound.refineHeader {n : Nat} (h : AccBound rx n) (c : EccCode) (p : ProtoId) (r : Nat) :
    AccBound (refineHeader c rx p r) n := by
  rw [refineHeader_frame]
  exact h

/-- At the last frame of the header group the recording ends at once, or gets the header's duration. -/
theorem Recording.refineHeader (h : Recording cfg rx (r + 1)) (c : EccCode)
    (hr : r + 1 = encDataOffset + 2 * framesPerGroup rx.curProto) :
    Recording cfg (refineHeader c rx rx.curProto r) (r + 1) := by
  have hlong := longestRecording_le rx.curProto
  have hprov : ¬ r + 1 < encDataOffset + (headerGroup (bytesPerGroup rx.curProto) + 1) * framesPerGroup rx.curProto := by
    rw [bytesPerGroup_eq]; exact (hr.symm.le).not_gt
  unfold Machine.refineHeader
  split
  · have hle : r + 1 ≤ longestRecording rx.curProto := (h.count ▸ Nat.le_add_right ..).trans h.framesToRecord_le
    have hreg : (BitVec.ofNat 11 (r + 1)).toNat = r + 1 := Nat.mod_eq_of_lt (by omega)
    exact
      { h with
        count := hreg.symm
        framesToRecord_le := hreg.trans_le hle
        provisional := fun hp => absurd hp hprov }
  · rename_i len hlen
    obtain ⟨h1, h140⟩ := hdrCheck_lengthOk hlen
    obtain ⟨hge, hle⟩ := recording_total_bounds rx.curProto h1 h140
    rw [← hr] at hge
    generalize htotal : encDataOffset + nGroups len (bytesPerGroup rx.curProto) * framesPerGroup rx.curProto = total at hge hle
    have hreg : (BitVec.ofNat 11 total).toNat = total := Nat.mod_eq_of_lt (by omega)
    have hreg' : (BitVec.ofNat 11 (total - (r + 1))).toNat = total - (r + 1) := Nat.mod_eq_of_lt (by omega)
    exact
      { h with
        count := by simp only [hreg, hreg']; omega
        framesToRecord_le := hreg.trans_le hle
        provisional := fun hp => absurd hp hprov }

/-! ### Receiving: one frame (R180) -/

theorem RxStores.recordFrame (h : RxStores cfg rx) (hr : Recording cfg rx r) (hleft : 1 ≤ rx.framesLeftToRecord.toNat)
    (x : List Word) : RxStores cfg (recordFrame x rx) :=
  { h with
    recorded_le := by
      have hle := hr.framesToRecord_le.trans (longestRecording_le _)
      have hcount := hr.count
      rw [recordFrame_recorded, List.length_append, hr.recorded_length, List.length_singleton, maxRecordedFrames]
      omega }

theorem Recording.recordFrame (h : Recording cfg rx r) (hleft : 1 ≤ rx.framesLeftToRecord.toNat) (x : List Word) :
    Recording cfg (recordFrame x rx) (r + 1) :=
  { h with
    count := by
      have hcount := h.count
      rw [recordFrame_framesLeftToRecord, recordFrame_framesToRecord, toNat_sub_one hleft]
      omega
    recorded_length := by rw [recordFrame_recorded, List.length_append, h.recorded_length, List.length_singleton]
    provisional := fun hp => h.provisional (Nat.lt_of_succ_lt hp) }

/-- Within a group of `f` frames the next frame is one further in, unless this one is the last. -/
theorem mod_succ_of_ne_last {q f : Nat} (hf : 0 < f) (h : q % f ≠ f - 1) : (q + 1) % f = q % f + 1 := by
  have hlt := Nat.mod_lt q hf
  have hone : 1 % f = 1 := Nat.mod_eq_of_lt (by omega)
  rw [Nat.add_mod_of_add_mod_lt (by omega), hone]

/-- What a frame of a reception leaves, before Decoding may follow (R180). -/
structure Reception (cfg : CfgState) (rx : RxState) (r : Nat) : Prop where
  stores : RxStores cfg rx
  recording : Recording cfg rx r
  acc : AccBound rx ((r - encDataOffset) % framesPerGroup rx.curProto)

@[simp] theorem accumulate_curProto (rx : RxState) (p : ProtoId) (m : List Mag) (j : Nat) :
    (accumulate rx p m j).curProto = rx.curProto := by rw [(accumulate_frame rx p m j).1]

/-- The groups of a reception fit `rxEnc` (R117, R118). -/
theorem Recording.group_lt (h : Recording cfg rx (r + 1)) :
    (r - encDataOffset) / framesPerGroup rx.curProto < 200 := by
  have hle : r + 1 ≤ longestRecording rx.curProto := (h.count ▸ Nat.le_add_right ..).trans h.framesToRecord_le
  have hF := (framesPerGroup_bounds rx.curProto).1
  rw [longestRecording_eq] at hle
  refine Nat.div_lt_of_lt_mul ?_
  have hoff : encDataOffset = 8 := rfl
  omega

/-- The last frame of a group: the group is decided, and after the header group the duration refined. -/
theorem Reception.of_last_frame (hs : RxStores cfg rx) (h : Recording cfg rx (r + 1)) (hr : encDataOffset ≤ r)
    {p : ProtoId} (hp : rx.curProto = p) {g : Nat} (hg : (r - encDataOffset) / framesPerGroup p = g)
    (hlast : (r - encDataOffset) % framesPerGroup p = framesPerGroup p - 1) (c : EccCode) :
    Reception cfg
      (if g = headerGroup (bytesPerGroup p) then refineHeader c (decideGroup rx p g) p r else decideGroup rx p g)
      (r + 1) := by
  subst hp
  have hstores : RxStores cfg (decideGroup rx rx.curProto g) := hs.decideGroup (hg ▸ h.group_lt)
  have hrec := h.decideGroup rx.curProto g
  have hacc : ∀ n, AccBound (decideGroup rx rx.curProto g) n := accBound_of_zero rfl rfl
  split
  · rename_i hheader
    have hend : r + 1 = encDataOffset + 2 * framesPerGroup rx.curProto := by
      have hg1 : g = 1 := by rw [hheader, bytesPerGroup_eq]; rfl
      have hF := (framesPerGroup_bounds rx.curProto).1
      have hdiv := Nat.div_add_mod (r - encDataOffset) (framesPerGroup rx.curProto)
      rw [hg, hg1, hlast] at hdiv
      omega
    exact ⟨hstores.refineHeader c _ r, hrec.refineHeader c hend, (hacc _).refineHeader c _ r⟩
  · exact ⟨hstores, hrec, hacc _⟩

theorem Reception.groupStep (hs : RxStores cfg rx) (h : Recording cfg rx (r + 1)) (hr : encDataOffset ≤ r)
    (hacc : AccBound rx ((r - encDataOffset) % framesPerGroup rx.curProto)) (c : EccCode) (m : List Mag) :
    Reception cfg (groupStep c m r rx) (r + 1) := by
  unfold Machine.groupStep
  dsimp only
  split
  · rename_i hlast
    exact .of_last_frame (hs.accumulate _ m _) (h.accumulate _ m _) hr (accumulate_curProto ..) rfl hlast c
  · rename_i hlast
    refine ⟨hs.accumulate _ m _, h.accumulate _ m _, ?_⟩
    have hF := (framesPerGroup_bounds rx.curProto).1
    rw [accumulate_curProto, Nat.succ_sub hr, mod_succ_of_ne_last (by omega) hlast]
    exact hacc.accumulate hs.histCount_le _ m _

/-! ### Decoding (R184 to R187) -/

theorem fecDecode_bounds {c : EccCode} {enc : List Byte} {k : Nat} {d : Decoded} (h : fecDecode c enc k = some d) :
    1 ≤ d.len ∧ d.len ≤ 140 ∧ d.pl.length ≤ d.len := by
  unfold fecDecode at h
  split at h
  · cases h
  · dsimp only at h
    split at h
    · rename_i hok
      split at h
      · cases h
      · cases h
        obtain ⟨h1, h140⟩ := lengthOk_iff.mp hok
        exact ⟨h1, h140, List.length_take_le ..⟩
    · cases h

theorem RxStores.surface (h : RxStores cfg rx) {d : Decoded} (h1 : 1 ≤ d.len) (h140 : d.len ≤ 140)
    (hpl : d.pl.length ≤ d.len) : RxStores cfg (surface rx d) := by
  have hlen : (BitVec.ofNat 9 d.len).toNat = d.len := Nat.mod_eq_of_lt (by omega)
  exact
    { h with
      data_length := by
        rw [surface_data, overwrite_length _ _ _ (by rw [h.data_length, maxDataSize]; omega), h.data_length]
      new_payload := fun _ => by rw [surface_dataLength, hlen]; exact ⟨h1, h140⟩
      no_payload := fun hn => by cases hn }

theorem RxStores.returnToAnalyzing (h : RxStores cfg rx) : RxInv cfg (returnToAnalyzing rx) := by
  have hfta := h.framesToAnalyze_eq
  exact .of_analyzing { h with } rfl rfl ⟨hfta.symm ▸ (by decide), hfta.le, rfl, rfl, by simp⟩

/-- Both outcomes of Decoding end the reception. -/
theorem RxStores.decoding (h : RxStores cfg rx) (c : EccCode) : RxInv cfg (decoding c rx) := by
  obtain ⟨rx', heq, rfl | ⟨d, hd, rfl⟩⟩ := decoding_returns c rx
  · rw [heq]; exact h.returnToAnalyzing
  · obtain ⟨h1, h140, hpl⟩ := fecDecode_bounds hd
    rw [heq]; exact (h.surface h1 h140 hpl).returnToAnalyzing

/-! ### One processed frame (R171, R180) -/

theorem Reception.finish (h : Reception cfg rx r) (c : EccCode) :
    RxInv cfg (if rx.framesLeftToRecord = 0 then Machine.decoding c rx else rx) := by
  split
  · exact h.stores.decoding c
  · rename_i hleft
    exact .of_recording h.stores h.recording hleft h.acc

theorem RxInv.receivingStep (h : RxInv cfg rx) (hr : rx.receiving = true) (c : EccCode) (m : List Mag) (x : List Word) :
    RxInv cfg (receivingStep c m x rx) := by
  obtain ⟨-, -, -, hleft, -⟩ := h.receiving_counters hr
  have hs := h.stores.recordFrame (h.recording hr) hleft x
  have hrec := (h.recording hr).recordFrame hleft x
  have hacc : AccBound (recordFrame x rx) ((recordedIndex rx - encDataOffset) % framesPerGroup rx.curProto) :=
    h.accBound hr
  unfold Machine.receivingStep
  refine Reception.finish (r := recordedIndex rx + 1) ?_ c
  split
  · rename_i hdata
    exact .groupStep hs hrec hdata hacc c m
  · rename_i hmarker
    -- no group has begun before frame `ENC_DATA_OFFSET`
    rw [Nat.sub_eq_zero_of_le (by omega)] at hacc
    refine ⟨hs, hrec, ?_⟩
    rw [Nat.sub_eq_zero_of_le (by omega)]
    exact hacc

theorem RxInv.processSpectrum (h : RxInv cfg rx) (c : EccCode) {m : List Mag} (hm : m.length = cfg.nBins.toNat)
    (x : List Word) : RxInv cfg (processSpectrum cfg c m x rx) := by
  have h1 := h.analyze hm
  unfold Machine.processSpectrum
  dsimp only
  split
  · rename_i ha
    exact h1.analyzingStep ha m
  · rename_i ha
    exact h1.receivingStep (h1.receiving_of_not_analyzing (by simpa using ha)) c m x

end

end Sys2Proof.Machine
end

section
/-! PROOFS of the family `10_state.md`, part 6: the invariant holds after reset (O58) and every step keeps it (O59). -/

namespace Sys2Proof.Machine

open Sys2Proof.Config

/-! ### Reset -/

theorem rxInv_afterReset {p : Straps} (hp : legalConfig p = true) :
    RxInv (CfgState.afterReset p) (RxState.afterReset p) := by
  have hinv := cfgInv_afterReset p
  have hc : (CfgState.afterReset p).cfgFault = false := by rw [CfgState.cfgFault_afterReset, hp]; rfl
  have hbins : (CfgState.afterReset p).nBins.toNat = nBinsOf p := hinv.nBins_eq hc
  have hbinsLength : ∀ {w : Nat}, (List.replicate (nBinsOf p) (0 : BitVec w)).length = (CfgState.afterReset p).nBins.toNat :=
    List.length_replicate.trans hbins.symm
  refine .of_analyzing ?_ rfl rfl ⟨(by decide : 1 ≤ 8), Nat.le_refl 8, rfl, rfl, iff_of_true rfl rfl⟩
  exact
    { framesToAnalyze_eq := rfl
      recorded_le := Nat.zero_le _
      spec_length := hbinsLength
      histBuf_length := List.length_replicate
      slot_length := fun l hl => by rw [List.eq_of_mem_replicate hl]; exact hbinsLength
      histSum_length := hbinsLength
      histCount_le := Nat.zero_le _
      filling := fun _ => rfl
      histSum_eq := fun k hk => by simp [RxState.afterReset, ringSum]
      frameBytes_length := List.length_replicate
      frameFill_lt := hinv.frameSize_pos hc
      accOn_length := List.length_replicate
      accNf_length := List.length_replicate
      enc_length := List.length_replicate
      data_length := List.length_replicate
      new_payload := fun h => by cases h
      no_payload := fun _ => rfl }

theorem inv_afterReset (b : Primitives) (p : Straps) : (State.afterReset b p).Inv where
  cfg := cfgInv_afterReset p
  tx := fun _ => txInv_afterReset _
  rx := fun hc => rxInv_afterReset (by simpa [State.afterReset] using hc)

/-- Settles O58, part by part: the registers are those reset writes, and R46's table meets the transmit and receive
invariants. -/
theorem resetMeetsTheInvariant : Obligations.ResetMeetsTheInvariant := by
  unfold Obligations.ResetMeetsTheInvariant
  exact inv_afterReset

/-! ### The pull of `RXRECV` (R65, R170) -/

theorem pullBytes_length_le (ain : List (List Byte)) (max : Nat) : (pullBytes ain max).1.length ≤ max := by
  cases ain with
  | nil => exact Nat.zero_le _
  | cons chunk later => exact List.length_take_le ..

section
variable {cfg : CfgState} {rx : RxState}

/-- `PROCESS_FRAME` keeps the receive invariant: `SPECTRUM` gives `NBINS` magnitudes (R130). -/
theorem RxInv.processFrame (h : RxInv cfg rx) (hcfg : CfgInv cfg) (hc : cfg.cfgFault = false) (b : Primitives)
    (x : List Word) : RxInv cfg (processFrame cfg b x rx) :=
  h.processSpectrum _ ((spectrum_length ..).trans (hcfg.nBins_eq hc).symm) x

/-- A pull never overfills the frame, and a complete frame is processed and begun anew. -/
theorem RxInv.receiveBytes (h : RxInv cfg rx) (hcfg : CfgInv cfg) (hc : cfg.cfgFault = false) (b : Primitives)
    {bytes : List Byte} (hb : bytes.length ≤ frameSize cfg - rx.frameFill.toNat) :
    RxInv cfg (receiveBytes cfg b bytes rx) := by
  have hlt := h.frameFill_lt
  have h4096 := hcfg.frameSize_le hc
  have hfill : (rx.frameFill + BitVec.ofNat 13 bytes.length).toNat = rx.frameFill.toNat + bytes.length := by
    simp only [BitVec.toNat_add, BitVec.toNat_ofNat]; omega
  have hbytes : (overwrite rx.frameBytes rx.frameFill.toNat bytes).length = frameSize cfg := by
    rw [overwrite_length _ _ _ (by rw [h.frameBytes_length]; omega), h.frameBytes_length]
  unfold Machine.receiveBytes
  dsimp only
  split
  · refine RxInv.processFrame ?_ hcfg hc b _
    exact { h with frameBytes_length := hbytes, frameFill_lt := (Nat.zero_le _).trans_lt hlt }
  · rename_i hpartial
    exact { h with frameBytes_length := hbytes, frameFill_lt := by rw [hfill] at hpartial ⊢; omega }

theorem RxInv.takePayload (h : RxInv cfg rx) : RxInv cfg { rx with rxNew := false, dataLength := 0 } :=
  { h with new_payload := fun hn => (by cases hn), no_payload := fun _ => rfl }

theorem RxInv.takeSpectrum (h : RxInv cfg rx) : RxInv cfg { rx with specNew := false } := { h with }

end

/-! ### One step -/

/-- The invariant does not look at the streams, the reset input or the bindings. -/
theorem State.Inv.of_eq {s t : State} (h : s.Inv) (hcfg : t.cfg = s.cfg) (htx : t.tx = s.tx) (hrx : t.rx = s.rx) : t.Inv :=
  ⟨hcfg ▸ h.cfg, by rw [hcfg, htx]; exact h.tx, by rw [hcfg, hrx]; exact h.rx⟩

theorem State.Inv.respond {s : State} (h : s.Inv) (status : Status) (v : Word) : (respond s status v).Inv :=
  h.of_eq rfl rfl rfl

theorem State.Inv.of_effect {s u : State} {i : Instr} (h : s.Inv) (he : Effect s i u) : u.Inv := by
  cases he with
  | none => exact h
  | popped => exact h.of_eq rfl rfl rfl
  | committed pop valid encoded =>
    obtain ⟨hle, rfl, -⟩ := popBytes_eq_some_iff.mp pop
    exact ⟨h.cfg, fun hc => (h.tx hc).commitInit (List.length_take_of_le hle) valid encoded, h.rx⟩
  | sent sending =>
    refine ⟨h.cfg, fun hc => (h.tx hc).advanceUnit sending ?_, h.rx⟩
    exact (unitSamples_length_le ..).trans (Nat.mul_le_mul_left 16 (h.cfg.txSpf_le hc))
  | tookSamples => exact ⟨h.cfg, fun hc => (h.tx hc).takeSamples, h.rx⟩
  | received pull =>
    subst pull
    exact ⟨h.cfg, h.tx, fun hc => (h.rx hc).receiveBytes h.cfg hc s.prims (pullBytes_length_le ..)⟩
  | tookPayload => exact ⟨h.cfg, h.tx, fun hc => (h.rx hc).takePayload⟩
  | tookSpectrum => exact ⟨h.cfg, h.tx, fun hc => (h.rx hc).takeSpectrum⟩

theorem State.Inv.of_respondsAfter {s t : State} {i : Instr} (h : s.Inv) (ht : RespondsAfter s i t) : t.Inv := by
  obtain ⟨u, status, value, he, rfl⟩ := ht
  exact (h.of_effect he).respond status value

theorem State.Inv.of_refuseIllegal {s t : State} (h : s.Inv) (ht : refuseIllegal s = .next t) : t.Inv := by
  rw [refuseIllegal_eq] at ht
  cases ht
  split <;> exact h.of_eq rfl rfl rfl

/-- R43: a step is the reset, or the response to an illegal word, or a command; each keeps the invariant. -/
theorem State.Inv.step {s t : State} (h : s.Inv) (ht : step s = .next t) : t.Inv := by
  cases hr : s.resetIn with
  | some p =>
    rw [step_of_reset hr] at ht
    cases ht
    exact inv_afterReset _ p
  | none =>
    cases hcmd : s.io.cmd with
    | nil => rw [step_of_noCommand ⟨hr, hcmd⟩] at ht; cases ht
    | cons w rest =>
      have h1 : State.Inv { s with io := { s.io with cmd := rest } } := h.of_eq rfl rfl rfl
      cases hd : decode w with
      | error e =>
        rw [step_of_not_decodes hr hcmd hd] at ht
        exact h1.of_refuseIllegal ht
      | ok i =>
        rw [step_of_decodes hr hcmd hd] at ht
        exact h1.of_respondsAfter (exec_next ht)

/-- Settles O59, by the cases of a step and, for a command, of its effect (`exec_next`): the transmit invariant under `TXINIT`'s
commit, `TXSEND` and `TXTAKE16`, the receive invariant under a pull with all that a complete frame sets off. -/
theorem everyStepKeepsTheInvariant : Obligations.EveryStepKeepsTheInvariant := by
  unfold Obligations.EveryStepKeepsTheInvariant
  exact fun _ _ h ht => h.step ht

end Sys2Proof.Machine
end

section
/-! PROOFS of the family `20_memory.md`, part 1: the command a step runs (O5), the registers `RDREG` reads (O14), and the
accessors that take what they read (O41). -/

namespace Sys2Proof.Machine

/-- Settles O5: the step on a word that decodes (`step_of_decodes`). -/
theorem stepRunsTheDecodedCommand : Obligations.StepRunsTheDecodedCommand := by
  unfold Obligations.StepRunsTheDecodedCommand
  exact fun _ _ _ _ hr hcmd hd => step_of_decodes hr hcmd hd

/-! ### The register map (R220) -/

/-- The fifteen registers in the order of R220. -/
def registerTable (s : State) : List Word :=
  [s.cfg.srIn, s.cfg.srOut, s.cfg.spf.setWidth 32, s.cfg.ssIn.setWidth 32, s.cfg.ssOut.setWidth 32, s.cfg.hzPerBin,
    s.cfg.freqDeltaBin.setWidth 32, s.cfg.freqDeltaHz, s.cfg.nBitsInMarker.setWidth 32, s.cfg.nMarkerFrames.setWidth 32,
    s.cfg.nPostMarkerFrames.setWidth 32, s.cfg.encDataOffset.setWidth 32, s.cfg.txSpf.setWidth 32,
    s.cfg.nBins.setWidth 32, statusWord s]

theorem regValue_eq_getElem? (s : State) (idx : Nat) : regValue s idx = (registerTable s)[idx]? :=
  match idx with
  | 0 | 1 | 2 | 3 | 4 | 5 | 6 | 7 | 8 | 9 | 10 | 11 | 12 | 13 | 14 => rfl
  | _ + 15 => rfl

theorem execRdreg_of_some {s : State} {idx : BitVec 8} {v : Word} (hc : s.cfg.cfgFault = false)
    (h : regValue s idx.toNat = some v) : execRdreg idx s = .next (s.answered v) := by
  simp only [execRdreg, h, whenConfigured_of_legal hc, answer_eq]

theorem execRdreg_of_none {s : State} {idx : BitVec 8} (hc : s.cfg.cfgFault = false) (h : regValue s idx.toNat = none) :
    execRdreg idx s = .next s.refusedIllegal := by
  simp [execRdreg, h, refuseIllegal_eq, hc]

/-- Settles O14: the register read is an element of R220's table, none from index 15 on. -/
theorem rdregAnswersTheRegister : Obligations.RdregAnswersTheRegister := by
  unfold Obligations.RdregAnswersTheRegister
  refine fun s idx hc => ⟨fun hlt => ?_, fun hge => ?_⟩
  · exact execRdreg_of_some hc ((regValue_eq_getElem? ..).trans (List.getElem?_eq_getElem (l := registerTable s) hlt))
  · exact execRdreg_of_none hc ((regValue_eq_getElem? ..).trans (List.getElem?_eq_none (l := registerTable s) hge))

/-! ### The takers (R71): what they leave, and that they then have nothing to hand over -/

theorem amp16Count_of_txtake16 {s t : State} (hc : s.cfg.cfgFault = false) (h : exec .txtake16 s = .next t) :
    t.tx.amp16Count = 0 := by
  rw [exec, execTxtake16, whenConfigured_of_legal hc] at h
  cases h; rfl

theorem txtake16_of_empty {s : State} (hc : s.cfg.cfgFault = false) (h : s.tx.amp16Count = 0) :
    exec .txtake16 s = .next (s.answered 0) := by
  have htx : { s.tx with amp16Count := 0 } = s.tx := by rw [← h]
  rw [exec, execTxtake16, whenConfigured_of_legal hc, answer_eq, htx, h]
  simp [pushHdo]

theorem rx_of_rxtake {s t : State} (hc : s.cfg.cfgFault = false) (h : exec .rxtake s = .next t) :
    t.rx.rxNew = false ∧ t.rx.dataLength = 0 := by
  rw [exec, execRxtake, whenConfigured_of_legal hc] at h
  cases h; exact ⟨rfl, rfl⟩

theorem rxtake_of_empty {s : State} (hc : s.cfg.cfgFault = false) (hn : s.rx.rxNew = false) (hl : s.rx.dataLength = 0) :
    exec .rxtake s = .next (s.answered 0) := by
  have hrx : { s.rx with rxNew := false, dataLength := 0 } = s.rx := by rw [← hn, ← hl]
  rw [exec, execRxtake, whenConfigured_of_legal hc, answer_eq, hrx, hl]
  simp [pushHdo]

theorem specNew_of_rxspec {s t : State} (hc : s.cfg.cfgFault = false) (h : exec .rxspec s = .next t) :
    t.rx.specNew = false := by
  rw [exec, execRxspec, whenConfigured_of_legal hc] at h
  split at h
  · cases h; rfl
  · rename_i hold
    cases h; simpa using hold

theorem rxspec_of_old {s : State} (hc : s.cfg.cfgFault = false) (h : s.rx.specNew = false) :
    exec .rxspec s = .next (s.answered 0) := by
  rw [exec, execRxspec, whenConfigured_of_legal hc, if_neg (by simp [h]), answer_eq]

theorem cfg_of_exec {i : Instr} {s t : State} (h : exec i s = .next t) : t.cfg = s.cfg := by
  obtain ⟨u, status, value, he, rfl⟩ := exec_next h
  cases he <;> rfl

/-- A command that is no taker and none of `TXINIT`, `TXSEND`, `RXRECV` has no effect besides its response. -/
theorem rsp_only_of_accessor {i : Instr} {s t : State} (hinit : ∀ p v l, i ≠ .txinit p v l)
    (hi : i ∉ [Instr.txsend, .txtake16, .rxrecv, .rxtake, .rxspec]) (h : exec i s = .next t) :
    t = { s with io := { s.io with rsp := t.io.rsp } } := by
  obtain ⟨u, status, value, he, rfl⟩ := exec_next h
  cases he with
  | none => rfl
  | popped | committed => exact absurd rfl (hinit _ _ _)
  | sent | tookSamples | received | tookPayload | tookSpectrum => simp at hi

/-- Settles O41: each taker leaves nothing to take, and with nothing to take it only answers 0; of the other commands only
`TXINIT`, `TXSEND` and `RXRECV` have an effect. -/
theorem takersClearAndAccessorsDoNot : Obligations.TakersClearAndAccessorsDoNot := by
  unfold Obligations.TakersClearAndAccessorsDoNot
  refine ⟨fun i s t hi hc h => ?_, fun _ _ _ hinit hi h => rsp_only_of_accessor hinit hi h⟩
  have hct : t.cfg.cfgFault = false := by rw [cfg_of_exec h, hc]
  rcases hi with rfl | rfl | rfl
  · have h0 := amp16Count_of_txtake16 hc h
    exact ⟨txtake16_of_empty hct h0, fun _ => h0, nofun, nofun⟩
  · obtain ⟨hnew, hlength⟩ := rx_of_rxtake hc h
    exact ⟨rxtake_of_empty hct hnew hlength, nofun, fun _ => ⟨hnew, hlength⟩, nofun⟩
  · have h0 := specNew_of_rxspec hc h
    exact ⟨rxspec_of_old hct h0, nofun, nofun, fun _ => h0⟩

end Sys2Proof.Machine
end

section
/-! PROOFS of the family `20_memory.md`, part 2: the pull of `RXRECV` (O44), and what its bytes do to the frame in progress
(O42, O43). -/

namespace Sys2Proof.Machine

/-! ### The pull (R65, R69) -/

theorem pullBytes_append_flatten (ain : List (List Byte)) (max : Nat) :
    (pullBytes ain max).1 ++ (pullBytes ain max).2.flatten = ain.flatten := by
  cases ain with
  | nil => rfl
  | cons chunk later =>
    obtain h | h := le_or_gt chunk.length max
    · simp [pullBytes_cons_of_le h]
    · simp [pullBytes_cons_of_lt h, ← List.append_assoc]

/-- Settles O44: at most `max` bytes (`pullBytes_length_le`), the front of the stream (`pullBytes_append_flatten`). -/
theorem pullTakesAPrefixOfTheStream : Obligations.PullTakesAPrefixOfTheStream := by
  unfold Obligations.PullTakesAPrefixOfTheStream
  exact fun ain max => ⟨pullBytes_length_le ain max, pullBytes_append_flatten ain max⟩

/-! ### The bytes of a pull (R170) -/

section
variable {cfg : CfgState} {rx : RxState} {b : List Byte} (prims : Config.Primitives)

/-- `rxFrameFill` counts the bytes of a frame of at most 4096 bytes without wrapping. -/
theorem frameFill_add_toNat (hle : rx.frameFill.toNat + b.length ≤ 4096) :
    (rx.frameFill + BitVec.ofNat 13 b.length).toNat = rx.frameFill.toNat + b.length := by
  simp only [BitVec.toNat_add, BitVec.toNat_ofNat]; omega

theorem receiveBytes_of_partial (hlt : rx.frameFill.toNat + b.length < frameSize cfg) (h4096 : frameSize cfg ≤ 4096) :
    receiveBytes cfg prims b rx =
      { rx with
        frameBytes := overwrite rx.frameBytes rx.frameFill.toNat b
        frameFill := BitVec.ofNat 13 (rx.frameFill.toNat + b.length) } := by
  rw [BitVec.ofNat_add, BitVec.ofNat_toNat, BitVec.setWidth_eq]
  exact if_neg (by rw [frameFill_add_toNat (by omega)]; exact hlt.ne)

theorem receiveBytes_of_complete (heq : rx.frameFill.toNat + b.length = frameSize cfg) (h4096 : frameSize cfg ≤ 4096)
    (hbuf : rx.frameBytes.length = frameSize cfg) :
    receiveBytes cfg prims b rx =
      processFrame cfg prims
        (frameWords cfg.ssIn.toNat cfg.spf.toNat (rx.frameBytes.take rx.frameFill.toNat ++ b))
        { rx with frameBytes := rx.frameBytes.take rx.frameFill.toNat ++ b, frameFill := 0 } := by
  have hbytes : overwrite rx.frameBytes rx.frameFill.toNat b = rx.frameBytes.take rx.frameFill.toNat ++ b := by
    rw [overwrite, List.drop_of_length_le (by omega), List.append_nil]
  rw [← hbytes]
  exact if_pos (by rw [frameFill_add_toNat (by omega)]; exact heq)

end

/-- `RXRECV` with a legal configuration, the bytes of its pull taking the receive state to `rx'`. -/
theorem exec_rxrecv_of_receiveBytes {s : State} {rx' : RxState} (hc : s.cfg.cfgFault = false)
    (h : receiveBytes s.cfg s.prims (pullBytes s.io.ain (frameSize s.cfg - s.rx.frameFill.toNat)).1 s.rx = rx') :
    exec .rxrecv s = .next (State.answered
      { s with
        io := { s.io with ain := (pullBytes s.io.ain (frameSize s.cfg - s.rx.frameFill.toNat)).2 }
        rx := rx' } 0) := by
  subst h
  exact whenConfigured_of_legal hc _

/-- Settles O42: the bytes of a pull that leaves the frame incomplete (`receiveBytes_of_partial`). -/
theorem rxrecvAccumulatesAPartialFrame : Obligations.RxrecvAccumulatesAPartialFrame := by
  unfold Obligations.RxrecvAccumulatesAPartialFrame
  intro s hc hlt h4096
  exact exec_rxrecv_of_receiveBytes hc (receiveBytes_of_partial s.prims hlt h4096)

/-- Settles O43: the bytes of a pull that completes the frame (`receiveBytes_of_complete`), processed by R171. -/
theorem rxrecvProcessesACompleteFrame : Obligations.RxrecvProcessesACompleteFrame := by
  unfold Obligations.RxrecvProcessesACompleteFrame
  intro s hc heq h4096 hbuf
  refine ⟨frameWords_length .., spectrum_length .., ?_⟩
  exact exec_rxrecv_of_receiveBytes hc (receiveBytes_of_complete s.prims heq h4096 hbuf)

end Sys2Proof.Machine
end

section
/-! PROOFS of the family `20_memory.md`, part 3: samples and their little-endian bytes (O45). -/

namespace Sys2Proof.Machine

/-! ### Little-endian bytes (R66) -/

theorem le16_eq (v : BitVec 16) : le16 v = [BitVec.ofNat 8 (v.toNat % 256), BitVec.ofNat 8 (v.toNat / 256)] := by
  have hv := v.isLt
  simp only [le16, List.cons.injEq, ← BitVec.toNat_inj, BitVec.extractLsb'_toNat, BitVec.toNat_ofNat,
    Nat.shiftRight_eq_div_pow, and_true]
  omega

@[simp] theorem fromLe_le16 (v : BitVec 16) : fromLe (le16 v) = v.toNat := by
  have hv := v.isLt
  simp only [le16, fromLe, BitVec.extractLsb'_toNat, Nat.shiftRight_eq_div_pow]
  omega

@[simp] theorem fromLe_le32 (v : Word) : fromLe (le32 v) = v.toNat := by
  have hv := v.isLt
  simp only [le32, fromLe, field_toNat]
  omega

/-! ### Input samples (R67) -/

theorem inputSample_two_le16 (v : I16) (tail : List Byte) : inputSample 2 (le16 v ++ tail) 0 = i16ToF32 v := by
  simp [inputSample, List.take_left' (le16_length v)]

theorem inputSample_four_le32 (w : Word) (tail : List Byte) : inputSample 4 (le32 w ++ tail) 0 = w := by
  simp [inputSample, List.take_left' (le32_length w)]

theorem inputSample_append_succ {ssIn : Nat} {b : List Byte} (hb : b.length = if ssIn = 2 then 2 else 4)
    (tail : List Byte) (i : Nat) : inputSample ssIn (b ++ tail) (i + 1) = inputSample ssIn tail i := by
  have hdrop : (b ++ tail).drop (b.length * (i + 1)) = tail.drop (b.length * i) := by
    rw [Nat.mul_succ, Nat.add_comm, List.drop_length_add_append]
  unfold inputSample
  split at hb
  · rename_i h
    rw [if_pos h, if_pos h, ← hb, hdrop]
  · rename_i h
    rw [if_neg h, if_neg h, ← hb, hdrop]

theorem frameWords_append_succ {ssIn : Nat} {b : List Byte} (hb : b.length = if ssIn = 2 then 2 else 4)
    (tail : List Byte) (n : Nat) :
    frameWords ssIn (n + 1) (b ++ tail) = inputSample ssIn (b ++ tail) 0 :: frameWords ssIn n tail := by
  simp [frameWords, List.range_succ_eq_map, inputSample_append_succ hb]

/-- Elements sent one after another come back from a frame when each has a sample's bytes and is read back from its own. -/
theorem frameWords_flatMap {α : Type} {ssIn : Nat} {send : α → List Byte} {view : α → Word}
    (hlen : ∀ a, (send a).length = if ssIn = 2 then 2 else 4)
    (hread : ∀ a tail, inputSample ssIn (send a ++ tail) 0 = view a) (l : List α) (tail : List Byte) :
    frameWords ssIn l.length (l.flatMap send ++ tail) = l.map view := by
  induction l with
  | nil => rfl
  | cons a as ih =>
    rw [List.flatMap_cons, List.append_assoc, List.length_cons, frameWords_append_succ (hlen a), hread, ih, List.map_cons]

/-- Settles O45: each sample form is read back from its own bytes (`frameWords_flatMap`). -/
theorem samplesSurviveTheByteStream : Obligations.SamplesSurviveTheByteStream := by
  unfold Obligations.SamplesSurviveTheByteStream
  refine ⟨fun smp tail => ⟨?_, ?_⟩, fun ws tail => ?_, le16_eq⟩
  · exact frameWords_flatMap (outputSample_length 2) inputSample_two_le16 smp tail
  · exact frameWords_flatMap (outputSample_length 4) (fun v => inputSample_four_le32 (i16ToF32 v)) smp tail
  · exact (frameWords_flatMap (view := id) le32_length inputSample_four_le32 ws tail).trans ws.map_id

end Sys2Proof.Machine
end

section
/-! PROOFS of the family `30_encoding.md`, part 1: the decoder of R91, said once (`decode_eq_ok_iff`); its round trips with the
encoder (O1, O2) and the words it refuses (O3, O4). -/

namespace Sys2Proof.Machine

/-! ### What the decoder accepts -/

/-- Everything that decodes: the reserved bits of the opcode's format are 0 and the format's table has the command (R91). -/
theorem decode_eq_ok_iff {w : Word} {i : Instr} :
    decode w = .ok i ↔
      (formatOf (opcField w) = some .n ∧ zeroFieldN w = 0 ∧ formatNCommand (opcField w) = some i) ∨
      (formatOf (opcField w) = some .i ∧ zeroFieldI w = 0 ∧
        formatICommand (opcField w) (subField w) (idxField w) = some i) ∨
      (formatOf (opcField w) = some .t ∧ .txinit (protoField w) (volumeField w) (lengthField w) = i) := by
  cases hf : formatOf (opcField w) with
  | none => simp [decode, hf]
  | some f =>
    cases f with
    | n =>
      cases hi : formatNCommand (opcField w) <;> by_cases hz : zeroFieldN w = 0#24 <;> simp [decode, hf, hi, hz]
    | i =>
      cases hi : formatICommand (opcField w) (subField w) (idxField w) <;> by_cases hz : zeroFieldI w = 0#8 <;>
        simp [decode, hf, hi, hz]
    | t => simp [decode, hf]

/-! ### From the command to its word and back (O1) -/

theorem decode_wordN {opc : BitVec 8} {i : Instr} (hf : formatOf opc = some .n) (hi : formatNCommand opc = some i) :
    decode (wordN opc) = .ok i := by
  rw [decode_eq_ok_iff, opcField_wordN]
  exact .inl ⟨hf, zeroFieldN_wordN opc, hi⟩

theorem decode_wordI {opc sub idx : BitVec 8} {i : Instr} (hf : formatOf opc = some .i)
    (hi : formatICommand opc sub idx = some i) : decode (wordI opc sub idx) = .ok i := by
  rw [decode_eq_ok_iff, opcField_wordI, subField_wordI, idxField_wordI]
  exact .inr (.inl ⟨hf, zeroFieldI_wordI opc sub idx, hi⟩)

theorem decode_wordT {opc : BitVec 8} (hf : formatOf opc = some .t) (proto : BitVec 4) (volume : BitVec 8)
    (length : BitVec 12) : decode (wordT opc proto volume length) = .ok (.txinit proto volume length) := by
  rw [decode_eq_ok_iff, opcField_wordT, protoField_wordT, volumeField_wordT, lengthField_wordT]
  exact .inr (.inr ⟨hf, rfl⟩)

/-- Settles O1: a word of a format decodes to what the format's table holds (`decode_wordN`, `decode_wordI`, `decode_wordT`); the
operand constraints are those of Format I's table. -/
theorem decodeOfEncodeIsTheCommand : Obligations.DecodeOfEncodeIsTheCommand := by
  unfold Obligations.DecodeOfEncodeIsTheCommand
  intro i hw
  cases i with
  | rdreg idx => exact decode_wordI rfl (if_pos ⟨rfl, of_decide_eq_true hw⟩)
  | catget idx => exact decode_wordI rfl (if_pos ⟨rfl, of_decide_eq_true hw⟩)
  | catname idx sub => exact decode_wordI rfl (if_pos (by simpa [Instr.wellFormed] using hw))
  | txinit proto volume length => exact decode_wordT rfl proto volume length
  | catlen | catdef | txsend | txhas | txtake16 | rxrecv | rxisrecv | rxisana | rxftr | rxfltr | rxfta | rxflta | rxtake
    | rxproto | rxprotoid | rxspec => exact decode_wordN rfl rfl

/-! ### From the word to its command and back (O2) -/

theorem opcField_toNat (w : Word) : (opcField w).toNat = w.toNat / 2 ^ 24 := by
  rw [opcField, field_toNat]; omega

theorem zeroFieldN_eq_zero_iff {w : Word} : zeroFieldN w = 0 ↔ w.toNat % 2 ^ 24 = 0 := by
  rw [← BitVec.toNat_inj, zeroFieldN, field_toNat]; simp

theorem zeroFieldI_eq_zero_iff {w : Word} : zeroFieldI w = 0 ↔ w.toNat / 2 ^ 16 % 256 = 0 := by
  rw [← BitVec.toNat_inj, zeroFieldI, field_toNat]; rfl

theorem subField_toNat (w : Word) : (subField w).toNat = w.toNat / 2 ^ 8 % 256 := by
  rw [subField, field_toNat]; rfl

theorem idxField_toNat (w : Word) : (idxField w).toNat = w.toNat % 256 := by
  rw [idxField, field_toNat]; simp

theorem wordN_opcField {w : Word} (hz : zeroFieldN w = 0) : wordN (opcField w) = w := by
  rw [zeroFieldN_eq_zero_iff] at hz
  apply BitVec.eq_of_toNat_eq
  rw [wordN_toNat, opcField_toNat]; omega

theorem wordI_fields {w : Word} (hz : zeroFieldI w = 0) : wordI (opcField w) (subField w) (idxField w) = w := by
  rw [zeroFieldI_eq_zero_iff] at hz
  apply BitVec.eq_of_toNat_eq
  rw [wordI_toNat, opcField_toNat, subField_toNat, idxField_toNat]; omega

theorem wordT_fields (w : Word) : wordT (opcField w) (protoField w) (volumeField w) (lengthField w) = w := by
  apply BitVec.eq_of_toNat_eq
  rw [wordT_toNat, opcField_toNat, protoField, volumeField, lengthField, field_toNat, field_toNat, field_toNat]; omega

theorem encode_of_formatNCommand {opc : BitVec 8} {i : Instr} (h : formatNCommand opc = some i) :
    encode i = wordN opc ∧ i.wellFormed = true := by
  unfold formatNCommand at h
  split at h <;> cases h <;> rename_i hopc <;> exact ⟨congrArg wordN (BitVec.eq_of_toNat_eq hopc.symm), rfl⟩

theorem encode_of_formatICommand {opc sub idx : BitVec 8} {i : Instr} (h : formatICommand opc sub idx = some i) :
    encode i = wordI opc sub idx ∧ i.wellFormed = true := by
  unfold formatICommand at h
  split at h
  · obtain rfl : opc = 0x01 := BitVec.eq_of_toNat_eq ‹_›
    obtain ⟨⟨rfl, hidx⟩, ⟨⟩⟩ := Option.ite_none_right_eq_some.mp h
    exact ⟨rfl, decide_eq_true hidx⟩
  · obtain rfl : opc = 0x12 := BitVec.eq_of_toNat_eq ‹_›
    obtain ⟨⟨rfl, hidx⟩, ⟨⟩⟩ := Option.ite_none_right_eq_some.mp h
    exact ⟨rfl, decide_eq_true hidx⟩
  · obtain rfl : opc = 0x13 := BitVec.eq_of_toNat_eq ‹_›
    obtain ⟨hc, ⟨⟩⟩ := Option.ite_none_right_eq_some.mp h
    exact ⟨rfl, by simpa [Instr.wellFormed] using hc⟩
  · cases h

theorem toNat_of_formatT {opc : BitVec 8} (h : formatOf opc = some .t) : opc.toNat = 0x20 := by
  unfold formatOf at h
  split at h <;> simp_all

/-- Settles O2: a word is rebuilt from the fields its format has (`decode_eq_ok_iff`). -/
theorem encodeOfDecodeIsTheWord : Obligations.EncodeOfDecodeIsTheWord := by
  unfold Obligations.EncodeOfDecodeIsTheWord
  intro w i h
  obtain ⟨-, hz, hi⟩ | ⟨-, hz, hi⟩ | ⟨hf, rfl⟩ := decode_eq_ok_iff.mp h
  · rw [← wordN_opcField hz]; exact encode_of_formatNCommand hi
  · rw [← wordI_fields hz]; exact encode_of_formatICommand hi
  · have hopc : opcField w = 0x20 := BitVec.eq_of_toNat_eq (toNat_of_formatT hf)
    exact ⟨by rw [encode, ← hopc, wordT_fields], rfl⟩

/-! ### The illegal words of R89 (O3) -/

/-- R89 (a). -/
theorem illegalWord_of_unknown {w : Word} (hf : formatOf (opcField w) = none) : IllegalWord w := by
  refine .inl ?_
  rw [← opcField_toNat]
  unfold formatOf at hf
  split at hf <;> simp_all

theorem toNat_of_formatI {opc : BitVec 8} (h : formatOf opc = some .i) : opc.toNat ∈ [0x01, 0x12, 0x13] := by
  unfold formatOf at h
  split at h <;> simp_all

/-- Format N has no operand: of R89 only (b) can apply. -/
theorem illegalWord_iff_of_formatN {w : Word} (hf : formatOf (opcField w) = some .n) :
    IllegalWord w ↔ zeroFieldN w ≠ 0 := by
  rw [ne_eq, zeroFieldN_eq_zero_iff, IllegalWord, ← opcField_toNat]
  unfold formatOf at hf
  split at hf <;> simp_all

/-- Format I: of R89 (c) and (d) can apply. -/
theorem illegalWord_iff_of_formatI {w : Word} (hf : formatOf (opcField w) = some .i) :
    IllegalWord w ↔ ¬ (zeroFieldI w = 0 ∧ (formatICommand (opcField w) (subField w) (idxField w)).isSome) := by
  have hopc := toNat_of_formatI hf
  simp only [List.mem_cons, List.not_mem_nil, or_false] at hopc
  rw [zeroFieldI_eq_zero_iff, IllegalWord, ← opcField_toNat, ← subField_toNat, ← idxField_toNat, formatICommand]
  rcases hopc with h | h | h <;> simp [h, ← BitVec.toNat_inj] <;> omega

theorem not_illegalWord_of_formatT {w : Word} (hf : formatOf (opcField w) = some .t) : ¬ IllegalWord w := by
  have hopc := toNat_of_formatT hf
  rw [IllegalWord, ← opcField_toNat]
  simp [hopc]

theorem formatNCommand_of_formatN {opc : BitVec 8} (hf : formatOf opc = some .n) : ∃ i, formatNCommand opc = some i := by
  unfold formatOf at hf
  split at hf <;> simp_all [formatNCommand]

theorem exists_decode_eq_ok_iff (w : Word) : (∃ i, decode w = .ok i) ↔ ¬ IllegalWord w := by
  simp only [decode_eq_ok_iff]
  cases hf : formatOf (opcField w) with
  | none => simp [illegalWord_of_unknown hf]
  | some f =>
    cases f with
    | n =>
      obtain ⟨i, hi⟩ := formatNCommand_of_formatN hf
      simp [illegalWord_iff_of_formatN hf, hi]
    | i => simp [illegalWord_iff_of_formatI hf, Option.isSome_iff_exists]
    | t => simp [not_illegalWord_of_formatT hf]

theorem exists_decode_eq_error_iff (w : Word) : (∃ e, decode w = .error e) ↔ IllegalWord w := by
  rw [← not_iff_not, ← exists_decode_eq_ok_iff]
  cases decode w <;> simp

/-- Settles O3, format by format (`exists_decode_eq_ok_iff`). -/
theorem illegalWordsAreThoseOfR89 : Obligations.IllegalWordsAreThoseOfR89 := by
  unfold Obligations.IllegalWordsAreThoseOfR89
  exact fun w => ⟨exists_decode_eq_error_iff w, exists_decode_eq_ok_iff w⟩

/-- Settles O4: the nine words are evaluated. -/
theorem writtenWordsDecode : Obligations.WrittenWordsDecode := by
  unfold Obligations.WrittenWordsDecode
  decide

end Sys2Proof.Machine
end

section
/-! PROOFS of the family `30_encoding.md`, part 2: the catalog commands and the protocol accessors (O17, O18, O38). -/

namespace Sys2Proof.Machine

/-! ### The catalog row (R88, R101) -/

theorem protoOf_of_lt {n : Nat} (h : n < 6) : protoOf n = some ⟨n, h⟩ := dif_pos h

theorem protoOf_of_le {n : Nat} (h : 6 ≤ n) : protoOf n = none := dif_neg (Nat.not_lt.mpr h)

theorem execCatget_of_lt {s : State} {idx : BitVec 8} (hc : s.cfg.cfgFault = false) (h : idx.toNat < 6) :
    execCatget idx s = .next (s.answered (packedEntry ⟨idx.toNat, h⟩)) := by
  simp only [execCatget, protoOf_of_lt h, whenConfigured_of_legal hc, answer_eq]

theorem execCatget_of_le {s : State} {idx : BitVec 8} (hc : s.cfg.cfgFault = false) (h : 6 ≤ idx.toNat) :
    execCatget idx s = .next s.refusedIllegal := by
  simp [execCatget, protoOf_of_le h, refuseIllegal_eq, hc]

theorem packedEntry_eq (p : ProtoId) :
    packedEntry p = BitVec.ofNat 32 (bytesPerGroup p * 2 ^ 20 + framesPerGroup p * 2 ^ 12 + fs p) := by
  revert p; decide

/-- The six rows of R101, packed. -/
def packedRows : List Word :=
  [BitVec.ofNat 32 (3 * 2 ^ 20 + 9 * 2 ^ 12 + 40), BitVec.ofNat 32 (3 * 2 ^ 20 + 6 * 2 ^ 12 + 40),
    BitVec.ofNat 32 (3 * 2 ^ 20 + 3 * 2 ^ 12 + 40), BitVec.ofNat 32 (3 * 2 ^ 20 + 9 * 2 ^ 12 + 320),
    BitVec.ofNat 32 (3 * 2 ^ 20 + 6 * 2 ^ 12 + 320), BitVec.ofNat 32 (3 * 2 ^ 20 + 3 * 2 ^ 12 + 320)]

theorem packedEntry_eq_row (p : ProtoId) : packedEntry p = packedRows[p.val]'p.isLt := by
  revert p; decide

/-- Settles O17: an index below 6 answers its row, packed (`packedEntry_eq_row`); no other index names a row. -/
theorem catgetAnswersThePackedRow : Obligations.CatgetAnswersThePackedRow := by
  unfold Obligations.CatgetAnswersThePackedRow
  refine fun s idx hc => ⟨fun h => ?_, execCatget_of_le hc⟩
  refine (execCatget_of_lt hc h).trans ?_
  rw [packedEntry_eq_row]; rfl

/-! ### The catalog name (R102, R107) -/

theorem execCatname_of_lt {s : State} {idx sub : BitVec 8} (hc : s.cfg.cfgFault = false) (h : idx.toNat < 6)
    (hsub : sub.toNat < 4) : execCatname idx sub s = .next (s.answered (nameWord ⟨idx.toNat, h⟩ sub.toNat)) := by
  simp only [execCatname, protoOf_of_lt h, if_pos (Nat.le_of_lt_succ hsub), whenConfigured_of_legal hc, answer_eq]

theorem execCatname_of_le {s : State} {idx sub : BitVec 8} (hc : s.cfg.cfgFault = false)
    (h : 6 ≤ idx.toNat ∨ 4 ≤ sub.toNat) : execCatname idx sub s = .next s.refusedIllegal := by
  rcases h with hidx | hsub
  · simp [execCatname, protoOf_of_le hidx, refuseIllegal_eq, hc]
  · have hsub' : ¬ sub.toNat ≤ 3 := by omega
    cases hp : protoOf idx.toNat <;> simp [execCatname, hp, hsub', refuseIllegal_eq, hc]

/-- Byte `j` of a little-endian number is element `j` of its bytes, 0 past their end. -/
theorem fromLe_digit (bytes : List Byte) (j : Nat) : fromLe bytes / 256 ^ j % 256 = (bytes.map BitVec.toNat).getD j 0 := by
  induction bytes generalizing j with
  | nil => simp [fromLe]
  | cons b bs ih =>
    have hb := b.isLt
    cases j with
    | zero => simp [fromLe]; omega
    | succ j =>
      have hdiv : (b.toNat + 256 * fromLe bs) / 256 = fromLe bs := by omega
      rw [fromLe, pow_succ', ← Nat.div_div_eq_div_mul, hdiv, ih]
      rfl

theorem nameWord_digit (p : ProtoId) (w : Nat) {j : Nat} (hj : j < 4) :
    (nameWord p w).toNat / 256 ^ j % 256 = ((catalog p).name.map BitVec.toNat).getD (4 * w + j) 0 := by
  have hlt : fromLe (((catalog p).name.drop (4 * w)).take 4) < 2 ^ 32 := by
    refine (fromLe_lt _).trans_le ((Nat.pow_le_pow_right (by decide) ?_ : _ ≤ 256 ^ 4).trans (by decide))
    exact List.length_take_le ..
  rw [nameWord, BitVec.toNat_ofNat, Nat.mod_eq_of_lt hlt, fromLe_digit]
  simp [List.getD_eq_getElem?_getD, List.getElem?_take_of_lt hj]

/-- The six names of R102. -/
def entryNames : List String := ["Normal", "Fast", "Fastest", "[U] Normal", "[U] Fast", "[U] Fastest"]

theorem catalog_name_eq (p : ProtoId) :
    (catalog p).name.map BitVec.toNat =
      (entryNames[p.val]'p.isLt).toList.map Char.toNat ++
        List.replicate (16 - (entryNames[p.val]'p.isLt).length) 0 := by
  revert p; decide

theorem getD_append_replicate_self {α : Type} (l : List α) (n : Nat) (a : α) (i : Nat) :
    (l ++ List.replicate n a).getD i a = l.getD i a := by
  rcases Nat.lt_or_ge i l.length with h | h
  · exact List.getD_append l _ a i h
  · rw [List.getD_append_right l _ a i h, List.getD_eq_default l a h, List.getD_eq_getElem?_getD, List.getElem?_replicate]
    split <;> rfl

/-- Settles O18: the word's bytes are the name's (`nameWord_digit`), the name is R102's with zero bytes after it
(`catalog_name_eq`). -/
theorem catnameAnswersNameBytes : Obligations.CatnameAnswersNameBytes := by
  unfold Obligations.CatnameAnswersNameBytes
  refine fun s idx sub hc => ⟨fun h hsub => ⟨_, execCatname_of_lt hc h hsub, fun j hj => ?_⟩, execCatname_of_le hc⟩
  rw [nameWord_digit _ _ hj, catalog_name_eq, getD_append_replicate_self]
  rfl

/-! ### The protocol of the last reception (R208, R209) -/

/-- Settles O38: both accessors are plain answers, the packed entry as a number (`packedEntry_eq`). -/
theorem protocolAccessors : Obligations.ProtocolAccessors := by
  unfold Obligations.ProtocolAccessors
  intro s hc
  rw [← packedEntry_eq]
  exact ⟨whenConfigured_of_legal hc _, whenConfigured_of_legal hc _⟩

end Sys2Proof.Machine
end

section
/-! PROOFS of the family `30_encoding.md`, part 3: the response of one step (O6, O9). -/

namespace Sys2Proof.Machine

/-- Settles O6: such a word does not decode, and its refusal answers `ILLEGAL`. -/
theorem illegalWordIsAnsweredAndSkipped : Obligations.IllegalWordIsAnsweredAndSkipped := by
  unfold Obligations.IllegalWordIsAnsweredAndSkipped
  intro s w rest hr hc hcmd hw
  obtain ⟨e, hd⟩ := (exists_decode_eq_error_iff w).mpr hw
  rw [step_of_not_decodes hr hcmd hd]
  simp [refuseIllegal_eq, hc]

/-! ### The response of a command with legal operands -/

/-- The command, if it answers, leaves `CMD` alone and appends the status `OK` and a value to `RSP` (R85, R86). -/
def AnswersOk (s : State) (r : Result) : Prop :=
  ∀ t, r = .next t → t.io.cmd = s.io.cmd ∧ ∃ v, t.io.rsp = s.io.rsp ++ [0, v]

/-- An answer from a state whose `CMD` and `RSP` are those of `s`. -/
theorem answersOk_answer {s u : State} (v : Word) (hcmd : u.io.cmd = s.io.cmd) (hrsp : u.io.rsp = s.io.rsp) :
    AnswersOk s (answer u v) := by
  rintro _ ⟨⟩
  exact ⟨hcmd, v, congrArg (· ++ [0, v]) hrsp⟩

theorem answersOk_fault (s : State) (f : Fault) : AnswersOk s (.fault f) := fun _ h => by cases h

theorem answersOk_whenConfigured {s : State} {body : Result} (hc : s.cfg.cfgFault = false) (h : AnswersOk s body) :
    AnswersOk s (whenConfigured s body) := by
  rwa [whenConfigured_of_legal hc]

theorem answersOk_execTxinit {s : State} (proto : BitVec 4) (volume : BitVec 8) (length : BitVec 12)
    (hc : s.cfg.cfgFault = false) : AnswersOk s (execTxinit proto volume length s) := by
  refine answersOk_whenConfigured hc ?_
  split
  · exact answersOk_fault s _
  · dsimp only
    split
    · exact answersOk_answer _ rfl rfl
    · split <;> exact answersOk_answer _ rfl rfl

theorem answersOk_exec {i : Instr} {s : State} (hc : s.cfg.cfgFault = false) (hw : i.wellFormed = true) :
    AnswersOk s (exec i s) := by
  cases i with
  | rdreg idx =>
    have hlt : idx.toNat < (registerTable s).length := Nat.lt_succ_of_le (of_decide_eq_true hw)
    rw [exec, execRdreg_of_some hc ((regValue_eq_getElem? ..).trans (List.getElem?_eq_getElem hlt))]
    exact answersOk_answer _ rfl rfl
  | catget idx =>
    rw [exec, execCatget_of_lt hc (Nat.lt_succ_of_le (of_decide_eq_true hw))]
    exact answersOk_answer _ rfl rfl
  | catname idx sub =>
    obtain ⟨hsub, hidx⟩ : sub.toNat ≤ 3 ∧ idx.toNat ≤ 5 := by simpa [Instr.wellFormed] using hw
    rw [exec, execCatname_of_lt hc (Nat.lt_succ_of_le hidx) (Nat.lt_succ_of_le hsub)]
    exact answersOk_answer _ rfl rfl
  | txinit proto volume length => exact answersOk_execTxinit proto volume length hc
  | txsend | rxspec => exact answersOk_whenConfigured hc (by split <;> exact answersOk_answer _ rfl rfl)
  | catlen | catdef | txhas | txtake16 | rxrecv | rxisrecv | rxisana | rxftr | rxfltr | rxfta | rxflta | rxtake | rxproto
    | rxprotoid => exact answersOk_whenConfigured hc (answersOk_answer _ rfl rfl)

/-! ### One step -/

/-- Settles O9: under `cfgFault` the step is that of O7, on an illegal word that of O6; any other word is a command with legal
operands (O2), which answers `OK` (`answersOk_exec`). -/
theorem everyCommandAnswersOnce : Obligations.EveryCommandAnswersOnce := by
  unfold Obligations.EveryCommandAnswersOnce
  intro s t hr h
  cases hcmd : s.io.cmd with
  | nil => rw [step_of_noCommand ⟨hr, hcmd⟩] at h; cases h
  | cons w rest =>
    cases hc : s.cfg.cfgFault with
    | true =>
      rw [configFaultAnswersEveryWord s w rest hr hc hcmd] at h
      cases h
      exact ⟨w, rest, 2, 0, rfl, rfl, rfl, by decide, by simp, by simp, fun _ => ⟨rfl, rfl⟩⟩
    | false =>
      by_cases hw : IllegalWord w
      · rw [illegalWordIsAnsweredAndSkipped s w rest hr hc hcmd hw] at h
        cases h
        exact ⟨w, rest, 1, 0, rfl, rfl, rfl, by decide, by simp, by simp [hw], fun _ => ⟨rfl, rfl⟩⟩
      · obtain ⟨i, hd⟩ := (exists_decode_eq_ok_iff w).mpr hw
        obtain ⟨-, hwf⟩ := encodeOfDecodeIsTheWord w i hd
        rw [step_of_decodes hr hcmd hd] at h
        obtain ⟨htcmd, v, htrsp⟩ := answersOk_exec (s := { s with io := { s.io with cmd := rest } }) hc hwf t h
        exact ⟨w, rest, 0, v, rfl, htcmd, htrsp, by decide, by simp, by simp [hw], fun h0 => absurd rfl h0⟩

end Sys2Proof.Machine
end

section
/-! PROOFS of the family `40_catalog.md`: `PROTO_OK`, the marker word, and the catalog's length and default entry (O16, O19,
O20). -/

namespace Sys2Proof.Machine

open Sys2Proof.Config

/-! ### `PROTO_OK` (R106) -/

/-- The five conditions of R106, over the catalog's fields and the two frame sizes. -/
theorem protoOkAt_iff {n l : Nat} {p : ProtoId} :
    protoOkAt n l p = true ↔
      (1 ≤ framesPerGroup p ∧ 1 ≤ bytesPerGroup p) ∧ slots p ≤ maxDataBits ∧
      fs p + freqDeltaBin * ampSlots p - 1 ≤ n / 2 ∧ 2 * (fs p + freqDeltaBin * (ampSlots p - 1)) < l ∧
      longestRecording p ≤ maxRecordedFrames := by
  simp only [protoOkAt, longestRecording, Bool.and_eq_true, decide_eq_true_eq, and_assoc]

/-- With the catalog's rows put in, only the two frame sizes are left to check: an entry passes when its 24 slots fit. -/
theorem protoOkAt_iff_sizes {n l : Nat} {p : ProtoId} :
    protoOkAt n l p = true ↔ fs p + 47 ≤ n / 2 ∧ 2 * (fs p + 46) < l := by
  obtain ⟨hF, hF'⟩ := framesPerGroup_bounds p
  simp only [protoOkAt_iff, slots, bytesPerGroup_eq, ampSlots_eq, longestRecording_eq, maxDataBits, freqDeltaBin,
    maxRecordedFrames]
  omega

theorem fs_le (p : ProtoId) : fs p ≤ 320 := by revert p; decide

theorem protoOk_reference (p : ProtoId) : protoOk (CfgState.afterReset reference) p = true := by
  have hspf : (CfgState.afterReset reference).spf.toNat = 1024 := by decide
  have htx : (CfgState.afterReset reference).txSpf.toNat = 1024 := by decide
  have hfs := fs_le p
  rw [protoOk, hspf, htx, protoOkAt_iff_sizes]
  omega

/-- Settles O19: `PROTO_OK` is its five conditions (`protoOkAt_iff`); `INIT_VALID` and `DETECT` both ask for it. -/
theorem protoOkConditions : Obligations.ProtoOkConditions :=
  ⟨fun _ _ => protoOkAt_iff, protoOk_reference,
    fun _ _ _ _ _ h => have ⟨_, _, hok, _⟩ := initValid_eq_some h; hok,
    fun _ _ _ _ h => have ⟨hok, _⟩ := detect_matches h; hok⟩

/-! ### The catalog's length and default entry (R103, R104) -/

/-- Settles O16: both commands are plain answers. -/
theorem catalogLengthAndDefault : Obligations.CatalogLengthAndDefault := by
  unfold Obligations.CatalogLengthAndDefault
  exact fun s hc => ⟨whenConfigured_of_legal hc _, whenConfigured_of_legal hc _⟩

/-! ### The marker word (R108) -/

/-- Slots 0 to 7: the fixed pattern `0x55`. -/
theorem markerOn_fixed (p : ProtoId) {s : Nat} (hs : s < 8) : markerOn p s = decide (s % 2 = 0) := by
  revert p s; decide

/-- Slots 8 to 11: the bits of the index. -/
theorem markerOn_index (p : ProtoId) {i : Nat} (hi : i < 4) : markerOn p (8 + i) = p.val.testBit i := by
  revert p i; decide

/-- Slots 12 to 15: their complements. -/
theorem markerOn_complement (p : ProtoId) {i : Nat} (hi : i < 4) : markerOn p (12 + i) = !p.val.testBit i := by
  revert p i; decide

/-- The fixed slots, the index slots and the complement slots. -/
theorem range_sixteen_eq : List.range 16 = List.range 8 ++ (List.range 4).map (8 + ·) ++ (List.range 4).map (12 + ·) := by
  decide

/-- Four of the fixed slots are on, and of each index slot and its complement slot one. -/
theorem markerOn_count (p : ProtoId) : ((List.range 16).filter (markerOn p)).length = 8 := by
  have hfixed : (List.range 8).countP (markerOn p) = 4 := by
    rw [List.countP_congr fun s hs => by rw [markerOn_fixed p (List.mem_range.mp hs)]]
    rfl
  have hindex : (List.range 4).countP (markerOn p ∘ (8 + ·)) = (List.range 4).countP p.val.testBit :=
    List.countP_congr fun i hi => by rw [Function.comp, markerOn_index p (List.mem_range.mp hi)]
  have hcomplement : (List.range 4).countP (markerOn p ∘ (12 + ·)) = (List.range 4).countP (fun i => !p.val.testBit i) :=
    List.countP_congr fun i hi => by rw [Function.comp, markerOn_complement p (List.mem_range.mp hi)]
  have hpair : 4 = (List.range 4).countP p.val.testBit + (List.range 4).countP (fun i => !p.val.testBit i) := by
    simpa using List.length_eq_countP_add_countP p.val.testBit (l := List.range 4)
  simp only [← List.countP_eq_length_filter, range_sixteen_eq, List.countP_append, List.countP_map, hfixed, hindex,
    hcomplement]
  omega

/-- An index is below 16, so two of them differ in one of their four low bits. -/
theorem exists_testBit_ne {p q : ProtoId} (h : p ≠ q) : ∃ i, i < 4 ∧ p.val.testBit i ≠ q.val.testBit i := by
  by_contra! hsame
  refine h (Fin.ext (Nat.eq_of_testBit_eq fun i => ?_))
  rcases Nat.lt_or_ge i 4 with hi | hi
  · exact hsame i hi
  · have hpow : 2 ^ 4 ≤ 2 ^ i := Nat.pow_le_pow_right (by decide) hi
    rw [Nat.testBit_lt_two_pow (by omega), Nat.testBit_lt_two_pow (by omega)]

/-- Where the indices differ in bit `i`, the words differ in the slots `8 + i` and `12 + i`. -/
theorem markerOn_differ {p q : ProtoId} (h : p ≠ q) :
    2 ≤ ((List.range 16).filter fun s => markerOn p s != markerOn q s).length := by
  obtain ⟨i, hi, hbit⟩ := exists_testBit_ne h
  have hsub : [8 + i, 12 + i].Sublist (List.range 16) := by clear hbit; revert i; decide
  simpa [markerOn_index, markerOn_complement, hi, hbit] using
    (hsub.filter fun s => markerOn p s != markerOn q s).length_le

/-- Settles O20: the three groups of slots one by one, then the two counts over them. -/
theorem markerWordPattern : Obligations.MarkerWordPattern := by
  unfold Obligations.MarkerWordPattern
  refine ⟨fun p s hs => ?_, markerOn_count, fun p q => markerOn_differ⟩
  split_ifs with h8 h12
  · exact markerOn_fixed p h8
  · obtain ⟨i, rfl⟩ := Nat.exists_eq_add_of_le (Nat.not_lt.mp h8)
    rw [Nat.add_sub_cancel_left, markerOn_index p (by omega)]
  · obtain ⟨i, rfl⟩ := Nat.exists_eq_add_of_le (Nat.not_lt.mp h12)
    rw [Nat.add_sub_cancel_left, markerOn_complement p (by omega)]

end Sys2Proof.Machine
end

section
/-! PROOFS of the family `41_frame_codec.md`, part 1: the sizes of the encoded stream (O21), its layout (O22), the header check
and the decode (O24, O52), and the round trip with one altered byte per block (O23). -/

namespace Sys2Proof.Machine

open Sys2Proof.Config

/-! ### Sizes (R115 to R118) -/

theorem ceilDiv_mono {a b : Nat} (h : a ≤ b) (k : Nat) : ceilDiv a k ≤ ceilDiv b k :=
  Nat.div_le_div_right (Nat.sub_le_sub_right (Nat.add_le_add_right h k) 1)

theorem ceilDiv_mul_le (a k : Nat) : ceilDiv a k * k ≤ a + k - 1 := Nat.div_mul_le_self ..

theorem ceilDiv_pos {a k : Nat} (ha : 1 ≤ a) (hk : 1 ≤ k) : 1 ≤ ceilDiv a k :=
  Nat.div_pos (by omega) hk

theorem le_ceilDiv_mul (a : Nat) {k : Nat} (hk : 1 ≤ k) : a ≤ ceilDiv a k * k := by
  have hdiv := Nat.div_add_mod' (a + k - 1) k
  have hmod := Nat.mod_lt (a + k - 1) hk
  unfold ceilDiv
  omega

theorem nBlocks_mono {len len' : Nat} (h : len ≤ len') (k : Nat) : nBlocks len k ≤ nBlocks len' k :=
  ceilDiv_mono (Nat.succ_le_succ h) k

theorem nBlocks_pos (len : Nat) {k : Nat} (hk : 1 ≤ k) : 1 ≤ nBlocks len k := ceilDiv_pos (Nat.succ_pos len) hk

theorem encLen_mono {len len' : Nat} (h : len ≤ len') (k : Nat) : encLen len k ≤ encLen len' k :=
  Nat.mul_le_mul_right _ (nBlocks_mono h k)

/-- R118 at the longest payload, for each block size. -/
theorem longest_stream_bounds : ∀ k ≤ 32, nBlocks 140 k ≤ 141 ∧ encLen 140 k ≤ 564 ∧ encLen 140 k + k - 1 ≤ 595 := by
  decide

/-- Settles O21: every size grows with the length, so the bounds are those of the longest payload; block 0 alone fills the
header groups. -/
theorem encodedStreamBounds : Obligations.EncodedStreamBounds := by
  unfold Obligations.EncodedStreamBounds
  refine ⟨fun len k _ h140 hk hk32 => ?_, rfl, fun len h1 h2 => ?_, fun len h3 h5 => ?_, rfl, rfl, rfl⟩
  · obtain ⟨hblocks, hbytes, hpadded⟩ := longest_stream_bounds k hk32
    have hle := encLen_mono h140 k
    have hgroups : nGroups len k * k ≤ encLen len k + k - 1 := ceilDiv_mul_le ..
    have hheader : headerGroup k + 1 = ceilDiv (k + eccParity) k := Nat.sub_add_cancel (ceilDiv_pos (by omega) hk)
    have hblock : k + eccParity ≤ encLen len k := Nat.le_mul_of_pos_left _ (nBlocks_pos len hk)
    exact ⟨(nBlocks_mono h140 k).trans hblocks, hle.trans hbytes, hgroups, by omega, hheader.trans_le (ceilDiv_mono hblock k)⟩
  · rw [nBlocks_three, encLen_three, nGroups_three]; omega
  · rw [nBlocks_three, encLen_three, nGroups_three]; omega

/-! ### Pieces of a byte list -/

theorem piece_append_of_le {l : List Byte} {i k : Nat} (h : (i + 1) * k ≤ l.length) (tail : List Byte) :
    piece (l ++ tail) i k = piece l i k := by
  rw [Nat.succ_mul] at h
  rw [piece, List.drop_append_of_le_length (by omega), List.take_append_of_le_length (by rw [List.length_drop]; omega), piece]

theorem piece_getD (l : List Byte) (i : Nat) {j k : Nat} (hj : j < k) (a : Byte) :
    (piece l i k).getD j a = l.getD (i * k + j) a := by
  simp [piece, List.getD_eq_getElem?_getD, List.getElem?_take_of_lt hj]

/-- The pieces of a list, one after another, are the list. -/
theorem flatMap_piece (l : List Byte) (n k : Nat) : (List.range n).flatMap (fun i => piece l i k) = l.take (n * k) := by
  induction n with
  | zero => simp
  | succ n ih => rw [List.range_succ, List.flatMap_append, ih, List.flatMap_singleton, piece, Nat.succ_mul, List.take_add]

/-- Two lists of `n` pieces are equal when their pieces are. -/
theorem eq_of_pieces {l l' : List Byte} {n k : Nat} (hl : l.length = n * k) (hl' : l'.length = n * k)
    (h : ∀ i, i < n → piece l i k = piece l' i k) : l = l' :=
  calc
    l = (List.range n).flatMap (fun i => piece l i k) := by rw [flatMap_piece, List.take_of_length_le hl.le]
    _ = (List.range n).flatMap (fun i => piece l' i k) := List.flatMap_congr fun i hi => h i (List.mem_range.mp hi)
    _ = l' := by rw [flatMap_piece, List.take_of_length_le hl'.le]

theorem any_piece_ne {l l' : List Byte} {n k : Nat} (hl : l.length = n * k) (hl' : l'.length = n * k) :
    ((List.range n).any fun i => decide (piece l i k ≠ piece l' i k)) = decide (l ≠ l') := by
  rw [Bool.eq_iff_iff]
  simp only [List.any_eq_true, List.mem_range, decide_eq_true_eq]
  constructor
  · rintro ⟨i, _, hne⟩ rfl
    exact hne rfl
  · intro hne
    by_contra! hsame
    exact hne (eq_of_pieces hl hl' hsame)

/-- Piece `i` of blocks of one length written one after another is block `i`. -/
theorem piece_flatMap_range {f : Nat → List Byte} {n i m : Nat} (hf : ∀ i, i < n → (f i).length = m) (hi : i < n) :
    piece ((List.range n).flatMap f) i m = f i := by
  induction n with
  | zero => cases hi
  | succ n ih =>
    have hf' : ∀ i, i < n → (f i).length = m := fun i h => hf i (h.trans (Nat.lt_succ_self n))
    have hlen : ((List.range n).flatMap f).length = n * m := by
      rw [flatMap_length_const _ _ m fun i h => hf' i (List.mem_range.mp h), List.length_range]
    rw [List.range_succ, List.flatMap_append, List.flatMap_singleton]
    rcases Nat.lt_succ_iff_lt_or_eq.mp hi with hlt | rfl
    · rw [piece_append_of_le (hlen ▸ Nat.mul_le_mul_right m hlt), ih hf' hlt]
    · rw [piece, List.drop_left' hlen, List.take_of_length_le (hf i hi).le]

/-! ### The encoded stream (R115, R116, R120) -/

theorem framedPayload_eq {pl : List Byte} {len : Nat} (k : Nat) (h : pl.length = len) :
    framedPayload pl len k = (BitVec.ofNat 8 len :: pl) ++ List.replicate (nBlocks len k * k - len - 1) 0 := by
  rw [framedPayload, List.take_of_length_le h.le, List.cons_append]

section
variable {c : EccCode} {pl enc : List Byte} {len k : Nat}

theorem framedPayload_length_of_pos (hpl : pl.length = len) (hk : 1 ≤ k) :
    (framedPayload pl len k).length = nBlocks len k * k :=
  framedPayload_length k hpl (le_ceilDiv_mul (len + 1) hk)

theorem framedPiece_length {i : Nat} (hpl : pl.length = len) (hk : 1 ≤ k) (hi : i < nBlocks len k) :
    (piece (framedPayload pl len k) i k).length = k :=
  piece_length (framedPayload_length_of_pos hpl hk) hi

/-- What `FEC_ENCODE` answers, block by block: for a code with three parity bytes every block is the codeword of its piece of
the framed payload. -/
theorem fecEncode_blocks (hpl : pl.length = len) (hk : 1 ≤ k) (hparity : ∀ d, d.length = k → (c.enc d).length = eccParity)
    (h : fecEncode c pl len k = some enc) :
    enc.length = nBlocks len k * (k + eccParity) ∧
    ∀ i, i < nBlocks len k → piece enc i (k + eccParity) = c.codeword (piece (framedPayload pl len k) i k) := by
  have hblock : ∀ i, i < nBlocks len k → (c.codeword (piece (framedPayload pl len k) i k)).length = k + eccParity := by
    intro i hi
    have hd := framedPiece_length hpl hk hi
    rw [EccCode.codeword, List.length_append, hparity _ hd, hd]
  unfold fecEncode at h
  split at h
  · cases h
    refine ⟨?_, fun i => piece_flatMap_range hblock⟩
    rw [flatMap_length_const _ _ _ fun i hi => hblock i (List.mem_range.mp hi), List.length_range]
  · cases h

end

/-- Settles O22: the blocks are the codewords of the pieces of the framed payload (`fecEncode_blocks`). -/
theorem encodedStreamLayout : Obligations.EncodedStreamLayout := by
  unfold Obligations.EncodedStreamLayout
  intro c k len pl hk _ h1 h140 hpl hparity
  have henc := fecEncode_eq_some (c := c) (pl := pl) (k := k) (lengthOk_iff.mpr ⟨h1, h140⟩)
  obtain ⟨hlength, hblock⟩ := fecEncode_blocks hpl hk hparity henc
  refine ⟨_, henc, hlength, fun i hi => ⟨_, framedPiece_length hpl hk hi, hblock i hi, fun j hj => ?_⟩⟩
  rw [piece_getD _ _ hj, framedPayload_eq k hpl, getD_append_replicate_self]

/-! ### The header check and the decode (R121, R122) -/

theorem piece_zero (l : List Byte) (k : Nat) : piece l 0 k = l.take k := by
  rw [piece, Nat.zero_mul, List.drop_zero]

theorem hdrCheck_eq_some_iff {c : EccCode} {enc : List Byte} {k len : Nat} :
    hdrCheck c enc k = some len ↔
      ∃ d b, c.dec (piece enc 0 (k + eccParity)) = some (d, b) ∧ (d.getD 0 0).toNat = len ∧ 1 ≤ len ∧ len ≤ 140 := by
  unfold hdrCheck
  split
  next h => simp [h]
  next d b h =>
    simp only [h, Option.some.injEq, Prod.mk.injEq]
    constructor
    · intro hok
      split at hok
      next hlen => cases hok; exact ⟨d, b, ⟨rfl, rfl⟩, rfl, lengthOk_iff.mp hlen⟩
      next => cases hok
    · rintro ⟨_, _, ⟨rfl, rfl⟩, rfl, hlen⟩
      exact if_pos (lengthOk_iff.mpr hlen)

/-- The loop over blocks that all decode. -/
theorem decodeBlocks_of_forall {c : EccCode} {enc : List Byte} {k : Nat} {data : Nat → List Byte} {bit : Nat → Bool}
    {is : List Nat} (h : ∀ i ∈ is, c.dec (piece enc i (k + eccParity)) = some (data i, bit i)) (fp : List Byte) (b : Bool) :
    decodeBlocks c enc k is fp b = some (fp ++ is.flatMap data, b || is.any bit) := by
  induction is generalizing fp b with
  | nil => simp [decodeBlocks]
  | cons i is ih =>
    obtain ⟨hi, his⟩ := List.forall_mem_cons.mp h
    simp [decodeBlocks, hi, ih his, Bool.or_assoc]

/-- The loop fails exactly when a block does. -/
theorem decodeBlocks_eq_none_iff {c : EccCode} {enc : List Byte} {k : Nat} {is : List Nat} (fp : List Byte) (b : Bool) :
    decodeBlocks c enc k is fp b = none ↔ ∃ i ∈ is, c.dec (piece enc i (k + eccParity)) = none := by
  induction is generalizing fp b with
  | nil => simp [decodeBlocks]
  | cons i is ih =>
    rw [decodeBlocks]
    split
    next h => simp [h]
    next h => simp [h, ih]

section
variable {c : EccCode} {enc : List Byte} {k len : Nat}

/-- `FEC_DECODE` is `HDR_CHECK`, then the blocks after block 0. -/
theorem fecDecode_of_hdrCheck_none (h : hdrCheck c enc k = none) : fecDecode c enc k = none := by
  unfold fecDecode
  split
  next => rfl
  next d b hd =>
    refine if_neg fun hlen => ?_
    rw [hdrCheck_eq_some_iff.mpr ⟨d, b, hd, rfl, lengthOk_iff.mp hlen⟩] at h
    cases h

theorem fecDecode_of_hdrCheck_some {d : List Byte} {b : Bool} (hd : c.dec (piece enc 0 (k + eccParity)) = some (d, b))
    (h : hdrCheck c enc k = some len) :
    fecDecode c enc k =
      (decodeBlocks c enc k (List.range' 1 (nBlocks len k - 1)) d b).map
        fun r => { pl := (r.1.drop 1).take len, len := len, corrected := r.2 } := by
  obtain ⟨d', b', hd', rfl, hlen⟩ := hdrCheck_eq_some_iff.mp h
  cases hd.symm.trans hd'
  simp only [fecDecode, hd, lengthOk_iff.mpr hlen, if_true]
  split
  next h => rw [h, Option.map_none]
  next h => rw [h, Option.map_some]

theorem range_nBlocks_eq_cons (len : Nat) (hk : 1 ≤ k) :
    List.range (nBlocks len k) = 0 :: List.range' 1 (nBlocks len k - 1) := by
  conv_lhs => rw [← Nat.sub_add_cancel (nBlocks_pos len hk), List.range_eq_range', List.range'_succ]

/-- What a decode whose header and blocks are good answers. -/
theorem fecDecode_of_forall {data : Nat → List Byte} {bit : Nat → Bool} (hk : 1 ≤ k) (hlen : hdrCheck c enc k = some len)
    (h : ∀ i, i < nBlocks len k → c.dec (piece enc i (k + eccParity)) = some (data i, bit i)) :
    fecDecode c enc k =
      some { pl := (((List.range (nBlocks len k)).flatMap data).drop 1).take len, len := len,
             corrected := (List.range (nBlocks len k)).any bit } := by
  have hlater : ∀ i ∈ List.range' 1 (nBlocks len k - 1), c.dec (piece enc i (k + eccParity)) = some (data i, bit i) :=
    fun i hi => h i (by rw [List.mem_range'_1] at hi; omega)
  rw [fecDecode_of_hdrCheck_some (h 0 (nBlocks_pos len hk)) hlen, decodeBlocks_of_forall hlater,
    range_nBlocks_eq_cons len hk, List.flatMap_cons, List.any_cons, Option.map_some]

/-- When `FEC_DECODE` fails. -/
theorem fecDecode_eq_none_iff :
    fecDecode c enc k = none ↔
      hdrCheck c enc k = none ∨
      ∃ len i, hdrCheck c enc k = some len ∧ 1 ≤ i ∧ i < nBlocks len k ∧ c.dec (piece enc i (k + eccParity)) = none := by
  cases hlen : hdrCheck c enc k with
  | none => simp [fecDecode_of_hdrCheck_none hlen]
  | some len =>
    obtain ⟨d, b, hd, _⟩ := hdrCheck_eq_some_iff.mp hlen
    simp only [fecDecode_of_hdrCheck_some hd hlen, Option.map_eq_none_iff, decodeBlocks_eq_none_iff, List.mem_range'_1,
      reduceCtorEq, false_or, Option.some.injEq, exists_and_left, exists_eq_left']
    exact exists_congr fun i => ⟨fun ⟨⟨h1, hn⟩, h⟩ => ⟨h1, by omega, h⟩, fun ⟨h1, hn, h⟩ => ⟨⟨h1, by omega⟩, h⟩⟩

/-- A decode that succeeds had a good header and good blocks. -/
theorem exists_blocks_of_fecDecode {r : Decoded} (hr : fecDecode c enc k = some r) :
    ∃ (len : Nat) (data : Nat → List Byte) (bit : Nat → Bool), hdrCheck c enc k = some len ∧
      ∀ i, i < nBlocks len k → c.dec (piece enc i (k + eccParity)) = some (data i, bit i) := by
  have hnone : fecDecode c enc k ≠ none := by rw [hr]; exact Option.some_ne_none r
  rw [ne_eq, fecDecode_eq_none_iff, not_or] at hnone
  obtain ⟨hhdr, hblocks⟩ := hnone
  obtain ⟨len, hlen⟩ := Option.ne_none_iff_exists'.mp hhdr
  have hdec : ∀ i, ∃ p, i < nBlocks len k → c.dec (piece enc i (k + eccParity)) = some p := by
    intro i
    cases hi : c.dec (piece enc i (k + eccParity)) with
    | some p => exact ⟨p, fun _ => rfl⟩
    | none =>
      rcases Nat.eq_zero_or_pos i with rfl | hpos
      · obtain ⟨d, b, hd, _⟩ := hdrCheck_eq_some_iff.mp hlen
        cases hi.symm.trans hd
      · exact ⟨([], false), fun hlt => absurd ⟨len, i, hlen, hpos, hlt, hi⟩ hblocks⟩
  choose p hp using hdec
  exact ⟨len, fun i => (p i).1, fun i => (p i).2, hlen, hp⟩

end

/-- Settles O24: the header check and the failures are the iffs above; the blocks of a decode that succeeds are all good
(`exists_blocks_of_fecDecode`), and then its answer is `fecDecode_of_forall`'s. -/
theorem decodeFailsExactlyWhenABlockOrTheLengthDoes : Obligations.DecodeFailsExactlyWhenABlockOrTheLengthDoes := by
  unfold Obligations.DecodeFailsExactlyWhenABlockOrTheLengthDoes
  intro c enc k hk
  refine ⟨fun len => piece_zero enc (k + 3) ▸ hdrCheck_eq_some_iff, fecDecode_eq_none_iff, fun r hr => ?_⟩
  obtain ⟨len, data, bit, hlen, hblocks⟩ := exists_blocks_of_fecDecode hr
  cases hr.symm.trans (fecDecode_of_forall hk hlen hblocks)
  refine ⟨hlen, ?_, data, fun i hi => ⟨bit i, hblocks i hi⟩, rfl⟩
  simp only [List.any_eq_true, List.mem_range]
  constructor
  · rintro ⟨i, hi, hbit⟩
    exact ⟨i, data i, hi, hbit ▸ hblocks i hi⟩
  · rintro ⟨i, d, hi, hd⟩
    have heq := (hblocks i hi).symm.trans hd
    simp only [Option.some.injEq, Prod.mk.injEq] at heq
    exact ⟨i, hi, heq.2⟩

/-- Settles O52: the two outcomes of the header check, the second with a length it accepts. -/
theorem headerRefinesTheDuration : Obligations.HeaderRefinesTheDuration := by
  unfold Obligations.HeaderRefinesTheDuration
  intro c rx p r
  constructor
  · intro hnone
    simp only [refineHeader, hnone]
  · intro len hlen
    obtain ⟨h1, h140⟩ := hdrCheck_lengthOk hlen
    refine ⟨h1, h140, ?_⟩
    simp only [refineHeader, hlen]
    rfl

/-! ### The round trip (R123) -/

/-- Blocks of one length that differ nowhere are equal. -/
theorem byteDistance_eq_zero_iff {l l' : List Byte} (h : l.length = l'.length) : byteDistance l l' = 0 ↔ l = l' := by
  induction l generalizing l' with
  | nil => simp [byteDistance, List.length_eq_zero_iff.mp h.symm]
  | cons a l ih =>
    obtain ⟨b, l', rfl⟩ := List.exists_cons_of_length_eq_add_one h.symm
    simp [byteDistance, ih (Nat.succ.inj h)]

/-- A block with at most one wrong byte decodes to its data, the corrected bit telling whether a byte was wrong. -/
theorem EccCode.Contract.dec_of_distance_le_one {c : EccCode} {k : Nat} (hc : c.Contract k) {d r : List Byte}
    (hd : d.length = k) (hr : r.length = k + eccParity) (h : byteDistance r (c.codeword d) ≤ 1) :
    c.dec r = some (d, decide (r ≠ c.codeword d)) := by
  by_cases heq : r = c.codeword d
  · rw [heq, hc.clean d hd]; simp
  · have hlength : r.length = (c.codeword d).length := by
      rw [hr, EccCode.codeword, List.length_append, hd, hc.enc_length d hd]
    rw [hc.corrects d r hd hr (Nat.one_le_iff_ne_zero.mpr (mt (byteDistance_eq_zero_iff hlength).mp heq)) h]
    simp [heq]

/-- Settles O23: every block decodes to its piece of the framed payload (`dec_of_distance_le_one`), and the pieces joined
are the framed payload. -/
theorem codecRoundTripWithOneErrorPerBlock : Obligations.CodecRoundTripWithOneErrorPerBlock := by
  unfold Obligations.CodecRoundTripWithOneErrorPerBlock
  intro c k len pl enc enc' tail hk _ hc h1 h140 hpl henc hlength hdist
  obtain ⟨hlen, hcodeword⟩ := fecEncode_blocks hpl hk hc.enc_length henc
  have hlen' := hlength.trans hlen
  have hpiece : ∀ i, i < nBlocks len k → piece (enc' ++ tail) i (k + eccParity) = piece enc' i (k + eccParity) :=
    fun i hi => piece_append_of_le (hlen' ▸ Nat.mul_le_mul_right _ hi) tail
  have hblock : ∀ i, i < nBlocks len k → c.dec (piece (enc' ++ tail) i (k + eccParity)) =
      some (piece (framedPayload pl len k) i k, decide (piece enc' i (k + eccParity) ≠ piece enc i (k + eccParity))) := by
    intro i hi
    rw [hpiece i hi, hcodeword i hi]
    exact hc.dec_of_distance_le_one (framedPiece_length hpl hk hi) (piece_length hlen' hi) (hcodeword i hi ▸ hdist i hi)
  have hheader : hdrCheck c (enc' ++ tail) k = some len := by
    refine hdrCheck_eq_some_iff.mpr ⟨_, _, hblock 0 (nBlocks_pos len hk), ?_, h1, h140⟩
    rw [piece_getD _ _ hk, framedPayload_eq k hpl, Nat.zero_mul]
    exact Nat.mod_eq_of_lt (by omega : len < 2 ^ 8)
  rw [fecDecode_of_forall hk hheader hblock, any_piece_ne hlen' hlen, flatMap_piece,
    List.take_of_length_le (framedPayload_length_of_pos hpl hk).le, framedPayload_eq k hpl]
  simp [hpl]

end Sys2Proof.Machine
end

section
/-! PROOFS of the family `41_frame_codec.md`, part 2: arithmetic of GF(2^8) (R114). Sums are `^^^`; an identity that is linear in
each operand is checked on the eight powers of two. -/

namespace Sys2Proof.Machine

/-! ### Linear maps -/

/-- A map of bytes that keeps sums of GF(2^8). -/
def XorLinear (f : Byte → Byte) : Prop := ∀ a b, f (a ^^^ b) = f a ^^^ f b

theorem XorLinear.map_zero {f : Byte → Byte} (h : XorLinear f) : f 0 = 0 := by
  have h0 := h 0 0
  rwa [BitVec.xor_self, BitVec.xor_self] at h0

theorem XorLinear.comp {f g : Byte → Byte} (hf : XorLinear f) (hg : XorLinear g) : XorLinear (fun a => f (g a)) :=
  fun a b => (congrArg f (hg a b)).trans (hf _ _)

/-- The low `n + 1` bits of a byte are its low `n` bits and bit `n`. -/
theorem lowBits_succ (a : Byte) (n : Nat) :
    (a.setWidth (n + 1)).setWidth 8 = (a.setWidth n).setWidth 8 ^^^ (if a.getLsbD n then BitVec.twoPow 8 n else 0) := by
  apply BitVec.eq_of_getLsbD_eq
  intro i hi
  rw [BitVec.getLsbD_xor, BitVec.getLsbD_setWidth, BitVec.getLsbD_setWidth, BitVec.getLsbD_setWidth, BitVec.getLsbD_setWidth]
  rcases Nat.lt_trichotomy i n with hlt | rfl | hgt
  · split <;> simp [hlt, Nat.lt_succ_of_lt hlt, hlt.ne']
  · split <;> simp_all
  · split <;> simp [hgt.ne, hgt.not_gt, Nat.not_lt.mpr hgt]

/-- Linear maps that agree on the powers of two are equal. -/
theorem XorLinear.ext {f g : Byte → Byte} (hf : XorLinear f) (hg : XorLinear g)
    (h : ∀ i < 8, f (BitVec.twoPow 8 i) = g (BitVec.twoPow 8 i)) (a : Byte) : f a = g a := by
  have hlow : ∀ n ≤ 8, f ((a.setWidth n).setWidth 8) = g ((a.setWidth n).setWidth 8) := by
    intro n hn
    induction n with
    | zero => rw [BitVec.eq_nil (a.setWidth 0)]; exact hf.map_zero.trans hg.map_zero.symm
    | succ n ih =>
      rw [lowBits_succ, hf, hg, ih (Nat.le_of_succ_le hn)]
      split
      · rw [h n hn]
      · rw [hf.map_zero, hg.map_zero]
  simpa using hlow 8 le_rfl

/-! ### The product -/

theorem xor_left_comm (a b c : Byte) : a ^^^ (b ^^^ c) = b ^^^ (a ^^^ c) := by
  rw [← BitVec.xor_assoc, BitVec.xor_comm a b, BitVec.xor_assoc]

theorem xor_xor_cancel_left (a b : Byte) : a ^^^ (a ^^^ b) = b := by
  rw [← BitVec.xor_assoc, BitVec.xor_self, BitVec.zero_xor]

theorem xor_xor_xor_comm (a b c d : Byte) : (a ^^^ b) ^^^ (c ^^^ d) = (a ^^^ c) ^^^ (b ^^^ d) := by
  simp only [BitVec.xor_assoc, xor_left_comm]

theorem xorLinear_gfTimesX : XorLinear gfTimesX := by
  intro a b
  rw [gfTimesX, gfTimesX, gfTimesX, BitVec.shiftLeft_xor_distrib, BitVec.msb_xor, xor_xor_xor_comm]
  cases a.msb <;> cases b.msb <;> simp

theorem xorLinear_gfMul_left (b : Byte) : XorLinear (gfMul · b) := by
  intro a a'
  have h : ∀ n, gfMulBits (a ^^^ a') b n = gfMulBits a b n ^^^ gfMulBits a' b n := by
    intro n
    induction n with
    | zero => exact (BitVec.xor_self (x := 0#8)).symm
    | succ n ih =>
      rw [gfMulBits, gfMulBits, gfMulBits, ih, xorLinear_gfTimesX, xor_xor_xor_comm]
      split <;> simp
  exact h 8

theorem xorLinear_gfMul_right (a : Byte) : XorLinear (gfMul a) := by
  intro b b'
  have h : ∀ n, gfMulBits a (b ^^^ b') n = gfMulBits a b n ^^^ gfMulBits a b' n := by
    intro n
    induction n with
    | zero => exact (BitVec.xor_self (x := 0#8)).symm
    | succ n ih =>
      rw [gfMulBits, gfMulBits, gfMulBits, ih, xorLinear_gfTimesX, xor_xor_xor_comm, BitVec.getLsbD_xor]
      cases b.getLsbD (7 - n) <;> cases b'.getLsbD (7 - n) <;> simp
  exact h 8

theorem xor_gfMul (a b c : Byte) : gfMul (a ^^^ b) c = gfMul a c ^^^ gfMul b c := xorLinear_gfMul_left c a b

theorem gfMul_xor (a b c : Byte) : gfMul a (b ^^^ c) = gfMul a b ^^^ gfMul a c := xorLinear_gfMul_right a b c

theorem gfMul_zero (a : Byte) : gfMul a 0 = 0 := (xorLinear_gfMul_right a).map_zero

theorem zero_gfMul (a : Byte) : gfMul 0 a = 0 := (xorLinear_gfMul_left a).map_zero

theorem gfMul_comm (a b : Byte) : gfMul a b = gfMul b a := by
  refine (xorLinear_gfMul_left b).ext (xorLinear_gfMul_right b) (fun i hi => ?_) a
  refine (xorLinear_gfMul_right _).ext (xorLinear_gfMul_left _) (fun j hj => ?_) b
  revert i j
  decide

theorem gfMul_gfTimesX (a b : Byte) : gfMul a (gfTimesX b) = gfTimesX (gfMul a b) := by
  refine ((xorLinear_gfMul_right a).comp xorLinear_gfTimesX).ext
    (xorLinear_gfTimesX.comp (xorLinear_gfMul_right a)) (fun i hi => ?_) b
  refine (xorLinear_gfMul_left _).ext (xorLinear_gfTimesX.comp (xorLinear_gfMul_left _)) (fun j hj => ?_) a
  revert i j
  decide

theorem gfMul_one (a : Byte) : gfMul a 1 = a :=
  (xorLinear_gfMul_left 1).ext (g := id) (fun _ _ => rfl) (by decide) a

/-- The product is summed over the bits of its second operand, so a factor `a` moves into the sum. -/
theorem gfMul_assoc (a b c : Byte) : gfMul (gfMul a b) c = gfMul a (gfMul b c) := by
  have h : ∀ n, gfMulBits (gfMul a b) c n = gfMul a (gfMulBits b c n) := by
    intro n
    induction n with
    | zero => exact (gfMul_zero a).symm
    | succ n ih =>
      rw [gfMulBits, gfMulBits, ih, gfMul_xor, gfMul_gfTimesX]
      split
      · rfl
      · rw [gfMul_zero]
  exact h 8

theorem gfMul_left_comm (a b c : Byte) : gfMul a (gfMul b c) = gfMul b (gfMul a c) := by
  rw [← gfMul_assoc, gfMul_comm a b, gfMul_assoc]

/-- Squaring is linear. -/
theorem gfMul_self_xor (a b : Byte) : gfMul (a ^^^ b) (a ^^^ b) = gfMul a a ^^^ gfMul b b := by
  rw [gfMul_xor, xor_gfMul, xor_gfMul, gfMul_comm b a, BitVec.xor_assoc, xor_xor_cancel_left]

/-! ### The powers of the primitive element -/

theorem gfTimesX_eq (a : Byte) : gfTimesX a = gfMul a 2 := by
  rw [show (2 : Byte) = gfTimesX 1 by decide, gfMul_gfTimesX, gfMul_one]

theorem gfAlphaPow_add (i j : Nat) : gfAlphaPow (i + j) = gfMul (gfAlphaPow i) (gfAlphaPow j) := by
  induction j with
  | zero => exact (gfMul_one _).symm
  | succ j ih => rw [← Nat.add_assoc, gfAlphaPow, gfAlphaPow, ih, gfMul_gfTimesX]

theorem gfAlphaPow_255 : gfAlphaPow 255 = 1 := by
  have h17 : gfAlphaPow 17 = 0x98 := by decide
  have h51 : gfAlphaPow 51 = 0x0A := by rw [show 51 = 17 + 17 + 17 from rfl, gfAlphaPow_add, gfAlphaPow_add, h17]; decide
  rw [show 255 = 51 + 51 + 51 + 51 + 51 from rfl, gfAlphaPow_add, gfAlphaPow_add, gfAlphaPow_add, gfAlphaPow_add, h51]
  decide

theorem gfAlphaPow_ne_one_of_lt : ∀ m < 128, m ≠ 0 → gfAlphaPow m ≠ 1 := by decide

/-- The element is primitive: if `a^m` were 1, so would be `a^(255 - m)`, and one of the two exponents is below 128. -/
theorem gfAlphaPow_ne_one {m : Nat} (hm : m < 255) (h0 : m ≠ 0) : gfAlphaPow m ≠ 1 := by
  intro h
  have hinv : gfAlphaPow (255 - m) = 1 := by
    have hprod := gfAlphaPow_add (255 - m) m
    rwa [Nat.sub_add_cancel hm.le, gfAlphaPow_255, h, gfMul_one, eq_comm] at hprod
  rcases Nat.lt_or_ge m 128 with hlt | hge
  · exact gfAlphaPow_ne_one_of_lt m hlt h0 h
  · exact gfAlphaPow_ne_one_of_lt (255 - m) (by omega) (by omega) hinv

/-- `a^(255 - i)` is the inverse of `a^i`. -/
theorem gfMul_gfAlphaPow_inv {i : Nat} (hi : i < 255) (b : Byte) :
    gfMul (gfAlphaPow (255 - i)) (gfMul (gfAlphaPow i) b) = b := by
  rw [← gfMul_assoc, ← gfAlphaPow_add, Nat.sub_add_cancel hi.le, gfAlphaPow_255, gfMul_comm, gfMul_one]

theorem gfAlphaPow_ne_zero {i : Nat} (hi : i < 255) : gfAlphaPow i ≠ 0 := by
  intro h
  have h1 := gfMul_gfAlphaPow_inv hi 1
  rw [h, zero_gfMul, gfMul_zero] at h1
  exact absurd h1 (by decide)

/-- The first 255 powers are distinct: the quotient of two equal ones would be an earlier power that is 1. -/
theorem gfAlphaPow_injective {i j : Nat} (hi : i < 255) (hj : j < 255) (h : gfAlphaPow i = gfAlphaPow j) : i = j := by
  wlog hij : i ≤ j generalizing i j
  · exact (this hj hi h.symm (Nat.le_of_not_le hij)).symm
  obtain ⟨m, rfl⟩ := Nat.exists_eq_add_of_le hij
  have hm : gfAlphaPow m = 1 := by
    rw [← gfMul_gfAlphaPow_inv hi (gfAlphaPow m), ← gfAlphaPow_add, ← h, ← gfAlphaPow_add, Nat.sub_add_cancel hi.le,
      gfAlphaPow_255]
  by_contra hne
  exact gfAlphaPow_ne_one (by omega) (by omega) hm

/-- Every nonzero byte is a power of the primitive element, as there are 255 of either. -/
theorem exists_gfAlphaPow {a : Byte} (ha : a ≠ 0) : ∃ i, i < 255 ∧ gfAlphaPow i = a := by
  have hmaps : ∀ i ∈ Finset.range 255, (gfAlphaPow i).toNat ∈ Finset.Ico 1 256 := fun i hi => by
    have hne := BitVec.toNat_ne_iff_ne.mpr (gfAlphaPow_ne_zero (Finset.mem_range.mp hi))
    exact Finset.mem_Ico.mpr ⟨Nat.one_le_iff_ne_zero.mpr hne, (gfAlphaPow i).isLt⟩
  have hinj : Set.InjOn (fun i => (gfAlphaPow i).toNat) (Finset.range 255) := fun i hi j hj h =>
    gfAlphaPow_injective (Finset.mem_range.mp hi) (Finset.mem_range.mp hj) (BitVec.eq_of_toNat_eq h)
  have hmem : a.toNat ∈ Finset.Ico 1 256 :=
    Finset.mem_Ico.mpr ⟨Nat.one_le_iff_ne_zero.mpr (BitVec.toNat_ne_iff_ne.mpr ha), a.isLt⟩
  obtain ⟨i, hi, hia⟩ := Finset.surjOn_of_injOn_of_card_le _ hmaps hinj (by simp) hmem
  exact ⟨i, Finset.mem_range.mp hi, BitVec.eq_of_toNat_eq hia⟩

theorem gfMul_eq_zero_iff {a b : Byte} : gfMul a b = 0 ↔ a = 0 ∨ b = 0 := by
  constructor
  · intro h
    refine or_iff_not_imp_left.mpr fun ha => ?_
    obtain ⟨i, hi, rfl⟩ := exists_gfAlphaPow ha
    rw [← gfMul_gfAlphaPow_inv hi b, h, gfMul_zero]
  · rintro (rfl | rfl)
    · exact zero_gfMul b
    · exact gfMul_zero a

theorem gfMul_left_cancel {a b c : Byte} (ha : a ≠ 0) (h : gfMul a b = gfMul a c) : b = c := by
  have hsum : gfMul a (b ^^^ c) = 0 := (gfMul_xor a b c).trans (BitVec.xor_eq_zero_iff.mpr h)
  exact BitVec.xor_eq_zero_iff.mp ((gfMul_eq_zero_iff.mp hsum).resolve_left ha)

end Sys2Proof.Machine
end

section
/-! PROOFS of the family `41_frame_codec.md`, part 3: the reference code RS3 meets its contract (O25). A codeword has zero
syndromes; a wrong byte adds its error times a power of the primitive element to each; the decoder tells the cases apart. -/

namespace Sys2Proof.Machine

open Sys2Proof.Config

/-! ### The syndromes of a codeword -/

/-- The remainder `r` of `rs3Step`, as a polynomial at `x`. -/
def remainderAt (x : Byte) (r : Byte × Byte × Byte) : Byte :=
  gfMul (gfMul r.1 x ^^^ r.2.1) x ^^^ r.2.2

theorem remainderAt_zero (x : Byte) : remainderAt x (0, 0, 0) = 0 := by
  rw [remainderAt, zero_gfMul]
  exact congrArg (· ^^^ 0#8) (zero_gfMul x)

/-- One division step at a root of `g`: the remainder's polynomial moves up one degree and takes in `b * x^3`. -/
theorem remainderAt_rs3Step {x : Byte} (hroot : gfMul x (gfMul x x) = gfMul 0x07 (gfMul x x) ^^^ gfMul 0x0E x ^^^ 0x08)
    (r : Byte × Byte × Byte) (b : Byte) :
    remainderAt x (rs3Step r b) = gfMul (remainderAt x r) x ^^^ gfMul b (gfMul x (gfMul x x)) := by
  obtain ⟨r2, r1, r0⟩ := r
  have hfeedback : gfMul (b ^^^ r2) (gfMul x (gfMul x x)) =
      gfMul (gfMul 0x07 (b ^^^ r2)) (gfMul x x) ^^^ gfMul (gfMul 0x0E (b ^^^ r2)) x ^^^ gfMul 0x08 (b ^^^ r2) := by
    rw [hroot, gfMul_xor, gfMul_xor, gfMul_comm 0x08, gfMul_comm 0x07 (b ^^^ r2), gfMul_comm 0x0E (b ^^^ r2), gfMul_assoc,
      gfMul_assoc]
  calc
    remainderAt x (rs3Step (r2, r1, r0) b)
      = gfMul r1 (gfMul x x) ^^^ gfMul r0 x ^^^ (gfMul (gfMul 0x07 (b ^^^ r2)) (gfMul x x) ^^^
          gfMul (gfMul 0x0E (b ^^^ r2)) x ^^^ gfMul 0x08 (b ^^^ r2)) := by
        simp only [remainderAt, rs3Step, xor_gfMul, gfMul_assoc, BitVec.xor_assoc, xor_left_comm]
    _ = gfMul (remainderAt x (r2, r1, r0)) x ^^^ gfMul b (gfMul x (gfMul x x)) := by
        rw [← hfeedback]
        simp only [remainderAt, xor_gfMul, gfMul_assoc, BitVec.xor_assoc, BitVec.xor_comm]

/-- The data's polynomial times `x^3` is the remainder at a root of `g`. -/
theorem rs3Eval_mul_cube {x : Byte} (hroot : gfMul x (gfMul x x) = gfMul 0x07 (gfMul x x) ^^^ gfMul 0x0E x ^^^ 0x08)
    (d : List Byte) : gfMul (rs3Eval x d) (gfMul x (gfMul x x)) = remainderAt x (d.foldl rs3Step (0, 0, 0)) := by
  induction d using List.reverseRecOn with
  | nil => exact (zero_gfMul _).trans (remainderAt_zero x).symm
  | append_singleton d b ih =>
    rw [List.foldl_append, List.foldl_cons, List.foldl_nil, remainderAt_rs3Step hroot, ← ih, rs3Eval, List.foldl_append,
      List.foldl_cons, List.foldl_nil, ← rs3Eval, xor_gfMul, gfMul_assoc, gfMul_assoc, gfMul_comm x]

theorem rs3Eval_append_parity (x : Byte) (d : List Byte) (r : Byte × Byte × Byte) :
    rs3Eval x (d ++ [r.1, r.2.1, r.2.2]) = gfMul (rs3Eval x d) (gfMul x (gfMul x x)) ^^^ remainderAt x r := by
  rw [rs3Eval, List.foldl_append, ← rs3Eval]
  simp only [List.foldl_cons, List.foldl_nil, remainderAt, xor_gfMul, gfMul_assoc, BitVec.xor_assoc]

/-- A codeword's polynomial is zero at a root of `g`: the parity is the remainder. -/
theorem rs3Eval_codeword_of_root {x : Byte}
    (hroot : gfMul x (gfMul x x) = gfMul 0x07 (gfMul x x) ^^^ gfMul 0x0E x ^^^ 0x08) (d : List Byte) :
    rs3Eval x (rs3.codeword d) = 0 :=
  (rs3Eval_append_parity x d _).trans (by rw [rs3Eval_mul_cube hroot]; exact BitVec.xor_self)

/-- The three points of the syndromes are roots of `g`. -/
theorem rs3Eval_codeword (d : List Byte) {i : Nat} (hi : i < 3) : rs3Eval (gfAlphaPow i) (rs3.codeword d) = 0 := by
  apply rs3Eval_codeword_of_root
  revert i
  decide

/-! ### The syndromes of an altered block -/

/-- Horner's rule carries an error of its accumulator up by one power for each byte that follows. -/
theorem foldl_horner_xor (i : Nat) (l : List Byte) (acc e : Byte) :
    l.foldl (fun acc b => gfMul acc (gfAlphaPow i) ^^^ b) (acc ^^^ e) =
      l.foldl (fun acc b => gfMul acc (gfAlphaPow i) ^^^ b) acc ^^^ gfMul e (gfAlphaPow (i * l.length)) := by
  induction l generalizing acc e with
  | nil => exact congrArg (acc ^^^ ·) (gfMul_one e).symm
  | cons b l ih =>
    rw [List.foldl_cons, List.foldl_cons, xor_gfMul, BitVec.xor_assoc, BitVec.xor_comm _ b, ← BitVec.xor_assoc, ih,
      gfMul_assoc, ← gfAlphaPow_add, List.length_cons, Nat.mul_succ, Nat.add_comm i]

/-- An error `e` in byte `p` adds `e * a^(i * (n - 1 - p))` to syndrome `i`. -/
theorem rs3Eval_modify (i : Nat) {l : List Byte} {p : Nat} (hp : p < l.length) (e : Byte) :
    rs3Eval (gfAlphaPow i) (l.modify p (· ^^^ e)) =
      rs3Eval (gfAlphaPow i) l ^^^ gfMul e (gfAlphaPow (i * (l.length - 1 - p))) := by
  unfold rs3Eval
  generalize (0 : Byte) = acc
  induction l generalizing p acc with
  | nil => cases hp
  | cons b l ih =>
    cases p with
    | zero =>
      rw [List.modify_zero_cons, List.foldl_cons, List.foldl_cons, ← BitVec.xor_assoc, foldl_horner_xor]
      rfl
    | succ p =>
      rw [List.modify_succ_cons, List.foldl_cons, List.foldl_cons, ih (Nat.lt_of_succ_lt_succ hp), List.length_cons]
      congr 4
      omega

/-- Blocks that differ in one byte. -/
theorem exists_modify_of_byteDistance_one {r w : List Byte} (hlen : r.length = w.length) (h : byteDistance r w = 1) :
    ∃ p e, p < w.length ∧ e ≠ 0 ∧ r = w.modify p (· ^^^ e) := by
  induction r generalizing w with
  | nil => cases h
  | cons a r ih =>
    obtain ⟨b, w, rfl⟩ := List.exists_cons_of_length_eq_add_one hlen.symm
    replace hlen := Nat.succ.inj hlen
    rw [byteDistance] at h
    split at h
    next hab =>
      obtain ⟨p, e, hp, he, rfl⟩ := ih hlen (by omega)
      exact ⟨p + 1, e, Nat.succ_lt_succ hp, he, by rw [hab, List.modify_succ_cons]⟩
    next hab =>
      obtain rfl := (byteDistance_eq_zero_iff hlen).mp (by omega)
      exact ⟨0, b ^^^ a, Nat.succ_pos _, mt BitVec.xor_eq_zero_iff.mp (Ne.symm hab), by
        rw [List.modify_zero_cons, xor_xor_cancel_left]⟩

/-- Blocks that differ in two bytes. -/
theorem exists_modify_of_byteDistance_two {r w : List Byte} (hlen : r.length = w.length) (h : byteDistance r w = 2) :
    ∃ p q e f, p < q ∧ q < w.length ∧ e ≠ 0 ∧ f ≠ 0 ∧ r = (w.modify p (· ^^^ e)).modify q (· ^^^ f) := by
  induction r generalizing w with
  | nil => cases h
  | cons a r ih =>
    obtain ⟨b, w, rfl⟩ := List.exists_cons_of_length_eq_add_one hlen.symm
    replace hlen := Nat.succ.inj hlen
    rw [byteDistance] at h
    split at h
    next hab =>
      obtain ⟨p, q, e, f, hpq, hq, he, hf, rfl⟩ := ih hlen (by omega)
      exact ⟨p + 1, q + 1, e, f, Nat.succ_lt_succ hpq, Nat.succ_lt_succ hq, he, hf, by
        rw [hab, List.modify_succ_cons, List.modify_succ_cons]⟩
    next hab =>
      obtain ⟨q, f, hq, hf, rfl⟩ := exists_modify_of_byteDistance_one hlen (by omega)
      exact ⟨0, q + 1, b ^^^ a, f, Nat.succ_pos q, Nat.succ_lt_succ hq, mt BitVec.xor_eq_zero_iff.mp (Ne.symm hab), hf, by
        rw [List.modify_zero_cons, List.modify_succ_cons, xor_xor_cancel_left]⟩

/-! ### The decoder -/

theorem rs3Dec_length {r d : List Byte} {b : Bool} (h : rs3Dec r = some (d, b)) : d.length = r.length - eccParity := by
  have htake : ∀ l : List Byte, l.length = r.length → (l.take (r.length - eccParity)).length = r.length - eccParity :=
    fun l hl => List.length_take_of_le (hl ▸ Nat.sub_le ..)
  simp only [rs3Dec] at h
  split at h
  · cases h
    exact htake r rfl
  · split at h
    · split at h
      · cases h
        exact htake _ (List.length_modify ..)
      · cases h
    · cases h

theorem rs3Dec_of_zero_syndromes {r : List Byte} (h : ∀ i < 3, rs3Eval (gfAlphaPow i) r = 0) :
    rs3Dec r = some (r.take (r.length - eccParity), false) :=
  if_pos ⟨h 0 (by decide), h 1 (by decide), h 2 (by decide)⟩

/-- One error `e` at the power `m`: the syndromes are `e`, `e a^m`, `e a^(2m)`, and `m` is the only power found. -/
theorem rs3Dec_of_one_error {r : List Byte} {e : Byte} {m : Nat} (he : e ≠ 0) (hm : m < r.length) (hr : r.length ≤ 127)
    (h : ∀ i < 3, rs3Eval (gfAlphaPow i) r = gfMul e (gfAlphaPow (i * m))) :
    rs3Dec r = some ((r.modify (r.length - 1 - m) (· ^^^ e)).take (r.length - eccParity), true) := by
  have hs0 : rs3Eval (gfAlphaPow 0) r = e := by rw [h 0 (by decide), Nat.zero_mul]; exact gfMul_one e
  have hs1 : rs3Eval (gfAlphaPow 1) r = gfMul e (gfAlphaPow m) := by rw [h 1 (by decide), Nat.one_mul]
  have hs2 := h 2 (by decide)
  have hne : ∀ i < 255, gfMul e (gfAlphaPow i) ≠ 0 := fun i hi => by
    rw [ne_eq, gfMul_eq_zero_iff, not_or]
    exact ⟨he, gfAlphaPow_ne_zero hi⟩
  have hsquare : gfMul (gfMul e (gfAlphaPow m)) (gfMul e (gfAlphaPow m)) = gfMul e (gfMul e (gfAlphaPow (2 * m))) := by
    rw [Nat.two_mul, gfAlphaPow_add, gfMul_assoc, gfMul_left_comm (gfAlphaPow m)]
  have hfind : (List.range r.length).find? (fun j => gfMul e (gfAlphaPow j) == gfMul e (gfAlphaPow m)) = some m := by
    rw [List.find?_range_eq_some]
    refine ⟨by simp, List.mem_range.mpr hm, fun j hj => ?_⟩
    have hjm : gfMul e (gfAlphaPow j) ≠ gfMul e (gfAlphaPow m) := fun heq =>
      hj.ne (gfAlphaPow_injective (by omega) (by omega) (gfMul_left_cancel he heq))
    simp [hjm]
  simp only [rs3Dec, hs0, hs1, hs2, hfind]
  rw [if_neg fun h => he h.1, if_pos ⟨he, hne m (by omega), hne _ (by omega), hsquare⟩]

/-- When the syndromes are not those of one error, nor all zero. -/
theorem rs3Dec_eq_none {r : List Byte} (h : gfMul (rs3Eval (gfAlphaPow 1) r) (rs3Eval (gfAlphaPow 1) r) ≠
      gfMul (rs3Eval (gfAlphaPow 0) r) (rs3Eval (gfAlphaPow 2) r)) : rs3Dec r = none := by
  simp only [rs3Dec]
  rw [if_neg, if_neg]
  · rintro ⟨_, _, _, hsquare⟩
    exact h hsquare
  · rintro ⟨hs0, hs1, _⟩
    exact h (by rw [hs0, hs1, zero_gfMul, zero_gfMul])

/-- By how much two errors miss the relation of one. -/
theorem two_error_discrepancy (e f x y : Byte) :
    gfMul (e ^^^ f) (gfMul e (gfMul x x) ^^^ gfMul f (gfMul y y)) =
      gfMul (gfMul e x ^^^ gfMul f y) (gfMul e x ^^^ gfMul f y) ^^^ gfMul (gfMul e f) (gfMul (x ^^^ y) (x ^^^ y)) := by
  rw [gfMul_self_xor, gfMul_self_xor, gfMul_xor, xor_gfMul, xor_gfMul]
  simp only [gfMul_xor, gfMul_assoc, gfMul_left_comm, BitVec.xor_assoc, BitVec.xor_comm, xor_left_comm]

/-- Two errors at different powers miss it. -/
theorem two_error_syndromes {e f x y : Byte} (he : e ≠ 0) (hf : f ≠ 0) (hxy : x ≠ y) :
    gfMul (gfMul e x ^^^ gfMul f y) (gfMul e x ^^^ gfMul f y) ≠
      gfMul (e ^^^ f) (gfMul e (gfMul x x) ^^^ gfMul f (gfMul y y)) := by
  intro h
  rw [two_error_discrepancy] at h
  have hzero : gfMul (gfMul e f) (gfMul (x ^^^ y) (x ^^^ y)) = 0 := by
    rw [← xor_xor_cancel_left (gfMul (gfMul e x ^^^ gfMul f y) _) (gfMul (gfMul e f) _), ← h]
    exact BitVec.xor_self
  simp only [gfMul_eq_zero_iff, he, hf, or_self, false_or] at hzero
  exact hxy (BitVec.xor_eq_zero_iff.mp hzero)

/-! ### The contract (R111 to R114) -/

theorem rs3_codeword_length (d : List Byte) : (rs3.codeword d).length = d.length + 3 := by
  rw [EccCode.codeword, List.length_append, rs3_enc_length, eccParity]

theorem rs3_codeword_take (d : List Byte) : (rs3.codeword d).take ((rs3.codeword d).length - eccParity) = d := by
  rw [rs3_codeword_length, eccParity, Nat.add_sub_cancel, EccCode.codeword, List.take_left]

/-- The syndromes of a codeword with one wrong byte are those of its error. -/
theorem rs3Eval_codeword_modify {d : List Byte} {i p : Nat} (hi : i < 3) (hp : p < (rs3.codeword d).length) (e : Byte) :
    rs3Eval (gfAlphaPow i) ((rs3.codeword d).modify p (· ^^^ e)) =
      gfMul e (gfAlphaPow (i * ((rs3.codeword d).length - 1 - p))) := by
  rw [rs3Eval_modify i hp, rs3Eval_codeword d hi]
  exact BitVec.zero_xor

/-- ECC-2: a codeword with one wrong byte is corrected. -/
theorem rs3Dec_of_one_wrong_byte {d : List Byte} {p : Nat} {e : Byte} (he : e ≠ 0) (hp : p < (rs3.codeword d).length)
    (hlen : (rs3.codeword d).length ≤ 127) : rs3Dec ((rs3.codeword d).modify p (· ^^^ e)) = some (d, true) := by
  have hpos : (rs3.codeword d).length - 1 - ((rs3.codeword d).length - 1 - p) = p := by omega
  have hundo : ((rs3.codeword d).modify p (· ^^^ e)).modify p (· ^^^ e) = rs3.codeword d := by
    have hid : (fun a : Byte => a ^^^ e) ∘ (fun a => a ^^^ e) = id := funext fun a => by
      rw [Function.comp_apply, BitVec.xor_assoc, BitVec.xor_self, BitVec.xor_zero, id]
    rw [List.modify_modify_eq, hid, List.modify_id]
  rw [rs3Dec_of_one_error (m := (rs3.codeword d).length - 1 - p) he (by rw [List.length_modify]; omega)
    (by rwa [List.length_modify]) fun i hi => rs3Eval_codeword_modify hi hp e, List.length_modify, hpos, hundo,
    rs3_codeword_take]

/-- ECC-3: a codeword with two wrong bytes fails. -/
theorem rs3Dec_of_two_wrong_bytes {d : List Byte} {p q : Nat} {e f : Byte} (he : e ≠ 0) (hf : f ≠ 0) (hpq : p < q)
    (hq : q < (rs3.codeword d).length) (hlen : (rs3.codeword d).length ≤ 255) :
    rs3Dec (((rs3.codeword d).modify p (· ^^^ e)).modify q (· ^^^ f)) = none := by
  have hsyndrome : ∀ i < 3, rs3Eval (gfAlphaPow i) (((rs3.codeword d).modify p (· ^^^ e)).modify q (· ^^^ f)) =
      gfMul e (gfAlphaPow (i * ((rs3.codeword d).length - 1 - p))) ^^^
        gfMul f (gfAlphaPow (i * ((rs3.codeword d).length - 1 - q))) := fun i hi => by
    rw [rs3Eval_modify i (by rwa [List.length_modify]), List.length_modify, rs3Eval_codeword_modify hi (hpq.trans hq)]
  have hxy : gfAlphaPow ((rs3.codeword d).length - 1 - p) ≠ gfAlphaPow ((rs3.codeword d).length - 1 - q) := fun h => by
    have hpositions := gfAlphaPow_injective (by omega) (by omega) h
    omega
  apply rs3Dec_eq_none
  rw [hsyndrome 0 (by decide), hsyndrome 1 (by decide), hsyndrome 2 (by decide)]
  simp only [Nat.zero_mul, Nat.one_mul, Nat.two_mul, gfAlphaPow_add]
  rw [show gfAlphaPow 0 = 1 from rfl, gfMul_one, gfMul_one]
  exact two_error_syndromes he hf hxy

/-- Settles O25: a block at distance 1 or 2 from a codeword is that codeword with one or two wrong bytes. -/
theorem referenceCodeMeetsItsContract : Obligations.ReferenceCodeMeetsItsContract := by
  unfold Obligations.ReferenceCodeMeetsItsContract
  intro k _ hk
  have hcode : ∀ d : List Byte, d.length = k → (rs3.codeword d).length = k + eccParity := fun d hd =>
    hd ▸ rs3_codeword_length d
  have hk35 : k + eccParity ≤ 35 := Nat.add_le_add_right hk 3
  refine { enc_length := fun d _ => rs3_enc_length d, dec_length := fun r d b hr h => ?_, clean := fun d hd => ?_,
           corrects := fun d r hd hr h1 h2 => ?_, detects := fun d r hd hr h => ?_ }
  · rw [rs3Dec_length h, hr, Nat.add_sub_cancel]
  · exact (rs3Dec_of_zero_syndromes fun i => rs3Eval_codeword d).trans (by rw [rs3_codeword_take])
  · obtain ⟨p, e, hp, he, rfl⟩ :=
      exists_modify_of_byteDistance_one (hr.trans (hcode d hd).symm) (Nat.le_antisymm h2 h1)
    exact rs3Dec_of_one_wrong_byte he hp (by rw [hcode d hd]; omega)
  · obtain ⟨p, q, e, f, hpq, hq, he, hf, rfl⟩ := exists_modify_of_byteDistance_two (hr.trans (hcode d hd).symm) h
    exact rs3Dec_of_two_wrong_bytes he hf hpq hq (by rw [hcode d hd]; omega)

end Sys2Proof.Machine
end

section
/-! PROOFS of the family `42_spectrum_analyzer.md`, part 1: the ring update and the publication of a spectrum (O46), and
`RXSPEC` (O40). -/

namespace Sys2Proof.Machine

/-! ### `RXSPEC` (R134) -/

theorem rxspec_of_new {s : State} (hc : s.cfg.cfgFault = false) (h : s.rx.specNew = true) :
    exec .rxspec s = .next (State.answered
      { s with
        rx := { s.rx with specNew := false }
        io := { s.io with hdo := s.io.hdo ++ s.rx.spec.flatMap le32 } } 1) := by
  rw [exec, execRxspec, whenConfigured_of_legal hc, if_pos h, answer_eq, pushHdo]

/-- Settles O40: the two branches of `RXSPEC` by `specNew`. -/
theorem rxspecHandsOverTheSpectrum : Obligations.RxspecHandsOverTheSpectrum := by
  unfold Obligations.RxspecHandsOverTheSpectrum
  exact fun _ hc => ⟨rxspec_of_new hc, rxspec_of_old hc⟩

/-! ### The ring (R131, R132) -/

/-- The running sum of a bin against the one before, with the evicted magnitude added back when the ring was full. -/
theorem RxInv.histSum_analyze_add_evicted {cfg : CfgState} {rx : RxState} {m : List Mag} (h : RxInv cfg rx)
    (hm : m.length = cfg.nBins.toNat) {k : Nat} (hk : k < cfg.nBins.toNat) :
    ((Machine.analyze m rx).histSum.getD k 0).toNat +
        (if rx.histCount.toNat = 4 then slotMag rx.histBuf k rx.histHead.toNat else 0) =
      (rx.histSum.getD k 0).toNat + (m.getD k 0).toNat := by
  rw [h.histSum_analyze hm hk, h.histSum_eq k hk]
  obtain hc | hc := h.full_or_filling
  · rw [if_pos hc]; exact h.ringSum_analyze_full hc k
  · rw [if_neg hc.ne]; exact h.ringSum_analyze_filling hc k

theorem histHead_succ (a : BitVec 2) : a + 1 = BitVec.ofNat 2 ((a.toNat + 1) % 4) := by
  rw [← BitVec.toNat_inj, BitVec.toNat_add, BitVec.toNat_ofNat, Nat.mod_mod]; rfl

/-- Settles O46: the sums by `histSum_analyze_add_evicted`; every other field is `ANALYZE`'s own write, the head counting
modulo 4. -/
theorem analyzeUpdatesTheRing : Obligations.AnalyzeUpdatesTheRing := by
  unfold Obligations.AnalyzeUpdatesTheRing
  intro cfg rx m h hm
  refine ⟨fun k hk => h.histSum_analyze_add_evicted hm (hm ▸ hk), ?_⟩
  rw [← histHead_succ]
  rfl

end Sys2Proof.Machine
end
section
/-! PROOFS of the family `42_spectrum_analyzer.md`, part 2: slot decisions on the spectra of a transmission whose tones are
separated (R136). While the ring holds only such spectra, a slot exceeds the margin over the noise floor exactly when it is
keyed, so a marker frame is detected as its own protocol. -/

namespace Sys2Proof.Machine

open Sys2Proof.Config

/-- A usable protocol of a legal configuration, its tones separated in the spectra `m`. -/
structure Channel (cfg : CfgState) (m : List Nat → List Mag) (p : ProtoId) : Prop where
  cfgInv : CfgInv cfg
  legal : cfg.cfgFault = false
  usable : protoOk cfg p = true
  tones : ToneSeparation cfg m p

/-- Every valid slot of the ring holds the spectrum of a frame of the transmission. -/
def RingEmitted (m : List Nat → List Mag) (p : ProtoId) (rx : RxState) : Prop :=
  ∀ i, i < rx.histCount.toNat → ∃ x, EmittableSet p x ∧ rx.histBuf.getD i [] = m x

theorem emittable_marker (p : ProtoId) : EmittableSet p (markerSet p) := .inl rfl

/-- The slots a frame of the transmission can key are among the `T` slots of R15. -/
theorem EmittableSet.lt {p : ProtoId} {x : List Nat} (h : EmittableSet p x) {b : Nat} (hb : b ∈ x) : b < ampSlots p := by
  rcases h with rfl | ⟨-, hslots⟩
  · exact lt_max_of_lt_right (List.mem_range.mp (List.mem_filter.mp hb).1)
  · exact lt_max_of_lt_left (hslots b hb)

section
variable {cfg : CfgState} {rx : RxState} {m : List Nat → List Mag} {p : ProtoId} {x : List Nat}

theorem RxInv.histCount_analyze_pos (h : RxInv cfg rx) (v : List Mag) : 1 ≤ (Machine.analyze v rx).histCount.toNat := by
  obtain hc | hc := h.full_or_filling
  · rw [histCount_analyze_of_full v hc, hc]; decide
  · rw [histCount_analyze_of_lt v hc]; exact Nat.succ_pos _

/-- A valid slot after `ANALYZE` is the head, or was valid before. -/
theorem RxInv.slot_cases_analyze (h : RxInv cfg rx) (v : List Mag) {i : Nat}
    (hi : i < (Machine.analyze v rx).histCount.toNat) : i = rx.histHead.toNat ∨ i < rx.histCount.toNat := by
  obtain hc | hc := h.full_or_filling
  · rw [histCount_analyze_of_full v hc] at hi; exact .inr hi
  · rw [histCount_analyze_of_lt v hc] at hi
    rw [h.filling hc]; omega

theorem RingEmitted.analyze (hr : RingEmitted m p rx) (h : RxInv cfg rx) (hx : EmittableSet p x) :
    RingEmitted m p (Machine.analyze (m x) rx) := by
  intro i hi
  rw [analyze_histBuf, List.getD_eq_getElem?_getD, List.getElem?_set]
  split
  · rename_i hhead
    exact ⟨x, hx, by rw [if_pos (hhead ▸ h.histHead_lt)]; rfl⟩
  · rename_i hother
    exact hr i ((h.slot_cases_analyze _ hi).resolve_left (Ne.symm hother))

/-- The tones of a usable protocol and their off bins are bins of the spectrum (R106). -/
theorem Channel.binOff_lt (hch : Channel cfg m p) {b : Nat} (hb : b < ampSlots p) : binOff p b < cfg.nBins.toNat := by
  obtain ⟨-, -, hbins, -⟩ := (protoOkConditions.1 cfg p).mp hch.usable
  have hT : ampSlots p = max (8 * bytesPerGroup p) 16 := rfl
  rw [hch.cfgInv.nBins_eq hch.legal, binOff, binOn, freqDeltaBin]
  omega

/-! ### The slot decisions -/

section
variable (hsep : ToneSeparation cfg m p) (hx : EmittableSet p x) {b : Nat}
include hsep hx

/-- R136 (a) over the whole ring: the off bin's sum, and the squelch as often, stay below a keyed tone's share. -/
theorem margin_lt_of_keyed (h : RxStores cfg rx) (hr : RingEmitted m p rx) (hcount : 1 ≤ rx.histCount.toNat)
    (hbin : binOff p b < cfg.nBins.toNat) (hb : b ∈ x) :
    3 * nfNum rx (binOn p b) < ((m x).getD (binOn p b) 0).toNat * rx.histCount.toNat := by
  have hkeyed : ∀ x', EmittableSet p x' →
      3 * max ((m x').getD (binOff p b) 0).toNat 4096 < ((m x).getD (binOn p b) 0).toNat := fun x' hx' =>
    (hsep.on x x' b b hx hx' hb (hx.lt hb)).trans_eq (Nat.mul_one _)
  have hslot : ∀ i ∈ Finset.range rx.histCount.toNat,
      3 * slotMag rx.histBuf (binOff p b) i < ((m x).getD (binOn p b) 0).toNat := by
    intro i hi
    obtain ⟨x', hx', heq⟩ := hr i (Finset.mem_range.mp hi)
    have := hkeyed x' hx'
    rw [slotMag, heq]
    omega
  have hsum := Finset.sum_lt_sum_of_nonempty ⟨0, Finset.mem_range.mpr hcount⟩ hslot
  rw [← Finset.mul_sum, ← ringSum_eq, ← h.histSum_eq _ hbin, Finset.sum_const, Finset.card_range, smul_eq_mul,
    Nat.mul_comm rx.histCount.toNat] at hsum
  have hsquelch : 12288 * rx.histCount.toNat < ((m x).getD (binOn p b) 0).toNat * rx.histCount.toNat :=
    Nat.mul_lt_mul_of_pos_right (by have := hkeyed x hx; omega) hcount
  unfold binOff at hsum
  rw [nfNum, squelch]
  omega

/-- R136 (b): the squelch alone keeps a slot that is not keyed within the margin. -/
theorem le_margin_of_not_keyed (hT : b < ampSlots p) (hb : b ∉ x) :
    ((m x).getD (binOn p b) 0).toNat * rx.histCount.toNat ≤ 3 * nfNum rx (binOn p b) := by
  have hquiet : ((m x).getD (binOn p b) 0).toNat ≤ 12288 := (Nat.mul_one _).symm.trans_le (hsep.off x b hx hb hT)
  have hshare := Nat.mul_le_mul_right rx.histCount.toNat hquiet
  rw [nfNum, squelch]
  omega

end

variable (hch : Channel cfg m p) (h : RxStores cfg rx) (hr : RingEmitted m p rx) (hcount : 1 ≤ rx.histCount.toNat)
include hch h hr hcount

/-- R173 on a frame of the transmission: a slot is on exactly when it is keyed. -/
theorem slotOn_eq_keyed (hx : EmittableSet p x) {b : Nat} (hT : b < ampSlots p) : slotOn rx p b (m x) = decide (b ∈ x) := by
  have hmargin : slotOn rx p b (m x) =
      decide (3 * nfNum rx (binOn p b) < ((m x).getD (binOn p b) 0).toNat * rx.histCount.toNat) := by
    rw [slotOn, marginDen, Nat.mul_one, marginNum]
  rw [hmargin, decide_eq_decide]
  refine ⟨fun hlt => ?_, margin_lt_of_keyed hch.tones hx h hr hcount (hch.binOff_lt hT)⟩
  by_contra hb
  exact (le_margin_of_not_keyed hch.tones hx hT hb).not_gt hlt

theorem markerMatch_marker : markerMatch rx p (m (markerSet p)) = true := by
  refine List.all_eq_true.mpr fun s hs => beq_iff_eq.mpr ?_
  have hT : s < ampSlots p := lt_max_of_lt_right (List.mem_range.mp hs)
  rw [slotOn_eq_keyed hch h hr hcount (emittable_marker p) hT, Bool.eq_iff_iff, decide_eq_true_iff, markerSet,
    List.mem_filter, and_iff_right hs]

/-- R175 on a marker frame: its own protocol matches, and by R136 (c) no other. -/
theorem detect_marker : detect cfg rx (m (markerSet p)) = some p := by
  cases hd : detect cfg rx (m (markerSet p)) with
  | none =>
    have hmatch := List.find?_eq_none.mp hd p (List.mem_finRange p)
    rw [hch.usable, markerMatch_marker hch h hr hcount] at hmatch
    exact absurd rfl hmatch
  | some q =>
    obtain ⟨hqok, hqmatch⟩ := detect_matches hd
    by_contra hne
    rw [hch.tones.other q rx (fun heq => hne (congrArg some heq)) hqok] at hqmatch
    cases hqmatch

end

end Sys2Proof.Machine
end

section
/-! PROOFS of the family `42_spectrum_analyzer.md`, part 3: what a transmission carries back to the receiver: the bits a group
keys are its bytes of the encoded stream (R119, R148), and a code that decodes its own codewords as clean decodes the stream to
its payload (R121, R122). -/

namespace Sys2Proof.Machine

open Sys2Proof.Config

/-! ### A code without errors -/

/-- What the receiver needs of the code when no byte is altered: the parity's length and ECC-1. -/
structure EccCode.Clean (c : EccCode) (k : Nat) : Prop where
  parity : ∀ d, d.length = k → (c.enc d).length = eccParity
  clean : ∀ d, d.length = k → c.dec (c.codeword d) = some (d, false)

/-- `enc` is the encoded stream of the payload `pl` of `len` bytes, under a clean code. -/
structure Encoded (c : EccCode) (k : Nat) (pl : List Byte) (len : Nat) (enc : List Byte) : Prop where
  block_pos : 1 ≤ k
  code : c.Clean k
  length_pos : 1 ≤ len
  length_le : len ≤ 140
  payload_length : pl.length = len
  encodes : fecEncode c pl len k = some enc

section
variable {c : EccCode} {k len : Nat} {pl enc : List Byte} (h : Encoded c k pl len enc)
include h

theorem Encoded.length_eq : enc.length = nBlocks len k * (k + eccParity) :=
  (fecEncode_blocks h.payload_length h.block_pos h.code.parity h.encodes).1

/-- Every block of the stream decodes to its piece of the framed payload, whatever follows the stream. -/
theorem Encoded.dec_block (tail : List Byte) {i : Nat} (hi : i < nBlocks len k) :
    c.dec (piece (enc ++ tail) i (k + eccParity)) = some (piece (framedPayload pl len k) i k, false) := by
  obtain ⟨hlen, hcodeword⟩ := fecEncode_blocks h.payload_length h.block_pos h.code.parity h.encodes
  rw [piece_append_of_le (hlen ▸ Nat.mul_le_mul_right _ hi), hcodeword i hi]
  exact h.code.clean _ (framedPiece_length h.payload_length h.block_pos hi)

theorem Encoded.hdrCheck_append (tail : List Byte) : hdrCheck c (enc ++ tail) k = some len := by
  refine hdrCheck_eq_some_iff.mpr ⟨_, _, h.dec_block tail (nBlocks_pos len h.block_pos), ?_, h.length_pos, h.length_le⟩
  rw [piece_getD _ _ h.block_pos, framedPayload_eq k h.payload_length, Nat.zero_mul]
  exact Nat.mod_eq_of_lt (h.length_le.trans_lt (by decide))

/-- The header check reads block 0 only. -/
theorem Encoded.hdrCheck_of_take {e : List Byte} (he : e.take (k + eccParity) = enc.take (k + eccParity)) :
    hdrCheck c e k = some len := by
  have hheader := h.hdrCheck_append []
  rw [List.append_nil, hdrCheck_eq_some_iff, piece_zero, ← he, ← piece_zero] at hheader
  exact hdrCheck_eq_some_iff.mpr hheader

theorem Encoded.fecDecode_append (tail : List Byte) :
    fecDecode c (enc ++ tail) k = some { pl := pl, len := len, corrected := false } := by
  have hall := framedPayload_length_of_pos h.payload_length h.block_pos
  rw [fecDecode_of_forall h.block_pos (h.hdrCheck_append tail) fun _ => h.dec_block tail, flatMap_piece,
    List.take_of_length_le hall.le, framedPayload_eq k h.payload_length]
  simp [h.payload_length]

end

/-! ### The bits of a group (R119, R148, R182) -/

theorem byteOfBits_getLsbD (v : Byte) : byteOfBits v.getLsbD 0 = v := by revert v; decide

theorem byteOfBits_eq {bits : Nat → Bool} {i : Nat} {v : Byte} (h : ∀ j, j < 8 → bits (8 * i + j) = v.getLsbD j) :
    byteOfBits bits i = v := by
  have hbits : (List.range 8).map (fun j => if bits (8 * i + j) then 2 ^ j else 0) =
      (List.range 8).map (fun j => if v.getLsbD (8 * 0 + j) then 2 ^ j else 0) :=
    List.map_congr_left fun j hj => by rw [h j (List.mem_range.mp hj), Nat.mul_zero, Nat.zero_add]
  rw [byteOfBits, hbits]
  exact byteOfBits_getLsbD v

/-- The on-set of data group `g` of the encoded stream `enc` (R148). -/
def sentSet (p : ProtoId) (enc : List Byte) (g : Nat) : List Nat :=
  (List.range (slots p)).filter (groupBit enc enc.length (bytesPerGroup p) g)

theorem emittable_sentSet (p : ProtoId) (enc : List Byte) (g : Nat) : EmittableSet p (sentSet p enc g) :=
  .inr ⟨List.nodup_range.filter _, fun _ hb => List.mem_range.mp (List.mem_filter.mp hb).1⟩

theorem mem_sentSet {p : ProtoId} {enc : List Byte} {g i j : Nat} (hi : i < bytesPerGroup p) (hj : j < 8)
    (hg : (g + 1) * bytesPerGroup p ≤ enc.length) :
    8 * i + j ∈ sentSet p enc g ↔ ((piece enc g (bytesPerGroup p)).getD i 0).getLsbD j = true := by
  have hslot : 8 * i + j ∈ List.range (slots p) := List.mem_range.mpr (by rw [slots]; omega)
  have hvalid : g * bytesPerGroup p + i < enc.length := by rw [Nat.succ_mul] at hg; omega
  rw [sentSet, List.mem_filter, and_iff_right hslot, groupBit, groupByte, show (8 * i + j) / 8 = i by omega,
    show (8 * i + j) % 8 = j by omega, if_pos hvalid, piece_getD _ _ hi]

/-- Slot decisions that follow the on-set give the group's bytes. -/
theorem decided_bytes {p : ProtoId} {enc : List Byte} {g : Nat} {bits : Nat → Bool}
    (hg : (g + 1) * bytesPerGroup p ≤ enc.length) (h : ∀ b, b < slots p → bits b = decide (b ∈ sentSet p enc g)) :
    (List.range (bytesPerGroup p)).map (byteOfBits bits) = piece enc g (bytesPerGroup p) := by
  have hlen : (piece enc g (bytesPerGroup p)).length = bytesPerGroup p := by
    rw [Nat.succ_mul] at hg; simp [piece]; omega
  refine List.ext_getElem (by simp [hlen]) fun i hi hi' => ?_
  rw [List.length_map, List.length_range] at hi
  rw [List.getElem_map, List.getElem_range]
  refine byteOfBits_eq fun j hj => ?_
  rw [h _ (by rw [slots]; omega), Bool.eq_iff_iff, decide_eq_true_iff, mem_sentSet hi hj hg, List.getD_eq_getElem]

end Sys2Proof.Machine
end

section
/-! PROOFS of the family `42_spectrum_analyzer.md`, part 4: the accumulators of a group over the frames of a transmission (R181),
and the bytes its decision writes (R182). -/

namespace Sys2Proof.Machine

open Sys2Proof.Config

/-- The accumulators of protocol `p`'s slots after `t` accumulated frames with the on-set `x`: a keyed slot is over the margin
by at least 1 for each frame, any other slot within it. -/
def Accumulated (p : ProtoId) (x : List Nat) (t : Nat) (rx : RxState) : Prop :=
  ∀ b, b < slots p →
    (b ∈ x → 3 * (rx.accNf.getD b 0).toNat + t ≤ (rx.accOn.getD b 0).toNat) ∧
    (b ∉ x → (rx.accOn.getD b 0).toNat ≤ 3 * (rx.accNf.getD b 0).toNat)

theorem accumulated_of_zero {rx : RxState} (hon : rx.accOn = List.replicate maxDataBits 0)
    (hnf : rx.accNf = List.replicate maxDataBits 0) (p : ProtoId) (x : List Nat) : Accumulated p x 0 rx := by
  have hzero : ∀ b, ((List.replicate maxDataBits (0 : BitVec 64)).getD b 0).toNat = 0 := fun b =>
    Nat.le_zero.mp ((accBound_of_zero hon hnf 0 b).1.trans_eq' (by rw [hon]))
  intro b _
  rw [hon, hnf, hzero]
  exact ⟨fun _ => Nat.le_refl 0, fun _ => Nat.le_refl 0⟩

theorem slots_lt_ampSlots {p : ProtoId} {b : Nat} (hb : b < slots p) : b < ampSlots p := lt_max_of_lt_left hb

theorem slots_le (p : ProtoId) : slots p ≤ maxDataBits := by revert p; decide

/-- One frame's share is added to a slot's accumulator without wrapping. -/
theorem mapIdx_acc_toNat {acc : List (BitVec 64)} {n s b : Nat} {v : Nat → Nat} (hb : b < acc.length) (hs : b < s)
    (ha : (acc.getD b 0).toNat ≤ n * 2 ^ 34) (hn : n ≤ 9) (hv : v b ≤ 2 ^ 34) :
    ((acc.mapIdx fun b a => if b < s then a + BitVec.ofNat 64 (v b) else a).getD b 0).toNat =
      (acc.getD b 0).toNat + v b := by
  rw [List.getD_eq_getElem _ _ hb] at ha ⊢
  rw [List.getD_eq_getElem _ _ (by rwa [List.length_mapIdx]), List.getElem_mapIdx, if_pos hs, BitVec.toNat_add,
    BitVec.toNat_ofNat]
  omega

section
variable {cfg : CfgState} {rx : RxState} {m : List Nat → List Mag} {p : ProtoId} {x : List Nat}

/-- Which frames of a catalog protocol's group count: all but the first and the last (R181). -/
theorem accumulates_iff (p : ProtoId) (j : Nat) :
    accumulates (framesPerGroup p) j = true ↔ 1 ≤ j ∧ j + 2 ≤ framesPerGroup p := by
  have hF := (framesPerGroup_bounds p).1
  simp only [accumulates, Bool.or_eq_true, Bool.and_eq_true, decide_eq_true_eq]
  omega

theorem accumulate_of_edge {j : Nat} (v : List Mag) (hj : ¬ (1 ≤ j ∧ j + 2 ≤ framesPerGroup p)) :
    accumulate rx p v j = rx :=
  if_neg (mt (accumulates_iff p j).mp hj)

theorem accumulate_of_inner {j : Nat} (v : List Mag) (hj : 1 ≤ j ∧ j + 2 ≤ framesPerGroup p) (hs : RxStores cfg rx)
    (hacc : AccBound rx j) {b : Nat} (hb : b < slots p) :
    ((accumulate rx p v j).accOn.getD b 0).toNat =
      (rx.accOn.getD b 0).toNat + (v.getD (binOn p b) 0).toNat * rx.histCount.toNat ∧
    ((accumulate rx p v j).accNf.getD b 0).toNat = (rx.accNf.getD b 0).toNat + nfNum rx (binOn p b) := by
  have hj9 : j ≤ 9 := by have := (framesPerGroup_bounds p).2; omega
  have hb256 := hb.trans_le (slots_le p)
  obtain ⟨hon, hnf⟩ := hacc b
  rw [accumulate, if_pos ((accumulates_iff p j).mpr hj)]
  exact ⟨mapIdx_acc_toNat (v := fun b => _) (hs.accOn_length ▸ hb256) hb hon hj9 (mag_mul_histCount_le hs.histCount_le _),
    mapIdx_acc_toNat (v := fun b => _) (hs.accNf_length ▸ hb256) hb hnf hj9 (nfNum_le hs.histCount_le _)⟩

/-- Frame `j` of a group, not its last, brings the accumulated frames to `j`. -/
theorem Accumulated.accumulate {j : Nat} (h : Accumulated p x (j - 1) rx) (hch : Channel cfg m p) (hs : RxStores cfg rx)
    (hr : RingEmitted m p rx) (hcount : 1 ≤ rx.histCount.toNat) (hacc : AccBound rx j) (hx : EmittableSet p x)
    (hj : j + 1 < framesPerGroup p) : Accumulated p x j (accumulate rx p (m x) j) := by
  by_cases hj1 : 1 ≤ j
  · intro b hb
    obtain ⟨hkeyed, hother⟩ := h b hb
    obtain ⟨hon, hnf⟩ := accumulate_of_inner (m x) ⟨hj1, hj⟩ hs hacc hb
    have hT := slots_lt_ampSlots hb
    rw [hon, hnf]
    constructor
    · intro hbx
      have hshare := margin_lt_of_keyed hch.tones hx hs hr hcount (hch.binOff_lt hT) hbx
      have hold := hkeyed hbx
      omega
    · intro hbx
      have hshare := le_margin_of_not_keyed (rx := rx) hch.tones hx hT hbx
      have hold := hother hbx
      omega
  · rw [accumulate_of_edge _ fun hj => hj1 hj.1]
    exact (Nat.eq_zero_of_not_pos hj1) ▸ h

/-- After an accumulated frame the group decision is the on-set (R182). -/
theorem Accumulated.groupDecision_eq {t : Nat} (h : Accumulated p x t rx) (ht : 1 ≤ t) {b : Nat} (hb : b < slots p) :
    groupDecision rx b = decide (b ∈ x) := by
  obtain ⟨hkeyed, hother⟩ := h b hb
  rw [groupDecision, marginNum, marginDen, Nat.mul_one, decide_eq_decide]
  constructor
  · intro hlt
    by_contra hbx
    exact (hother hbx).not_gt hlt
  · intro hbx
    have := hkeyed hbx
    omega

/-- The decision of group `g` extends the recovered part of the stream by the group's bytes. -/
theorem Accumulated.decideGroup_enc_take {t g : Nat} {enc : List Byte} (h : Accumulated p (sentSet p enc g) t rx)
    (ht : 1 ≤ t) (hg : (g + 1) * bytesPerGroup p ≤ enc.length) (hroom : g * bytesPerGroup p ≤ rx.enc.length)
    (htake : rx.enc.take (g * bytesPerGroup p) = enc.take (g * bytesPerGroup p)) :
    (decideGroup rx p g).enc.take ((g + 1) * bytesPerGroup p) = enc.take ((g + 1) * bytesPerGroup p) := by
  have hbytes := decided_bytes hg fun b hb => h.groupDecision_eq ht hb
  have hlen : (rx.enc.take (g * bytesPerGroup p) ++ piece enc g (bytesPerGroup p)).length = (g + 1) * bytesPerGroup p := by
    rw [← hbytes, List.length_append, List.length_take_of_le hroom, List.length_map, List.length_range, Nat.succ_mul]
  rw [decideGroup_enc, overwrite, hbytes, ← List.append_assoc, List.take_left' hlen, htake, piece, Nat.succ_mul,
    List.take_add]

end

end Sys2Proof.Machine
end

section
/-! PROOFS of the family `42_spectrum_analyzer.md`, part 5: a reception of a transmission, frame by frame (R180), up to the
surfaced payload (R185). -/

namespace Sys2Proof.Machine

open Sys2Proof.Config

/-! ### One frame of a reception, before Decoding may follow -/

/-- The part of `RECEIVING_STEP` before its last test (R180). -/
def hearFrame (c : EccCode) (v : List Mag) (w : List Word) (rx : RxState) : RxState :=
  if 8 ≤ recordedIndex rx then groupStep c v (recordedIndex rx) (recordFrame w rx) else recordFrame w rx

theorem receivingStep_eq (c : EccCode) (v : List Mag) (w : List Word) (rx : RxState) :
    receivingStep c v w rx =
      if (hearFrame c v w rx).framesLeftToRecord = 0 then decoding c (hearFrame c v w rx) else hearFrame c v w rx := rfl

theorem processSpectrum_of_receiving {cfg : CfgState} {c : EccCode} {rx : RxState} (h : rx.analyzing = false) (v : List Mag)
    (w : List Word) : processSpectrum cfg c v w rx = receivingStep c v w (analyze v rx) :=
  if_neg (by rw [analyze_analyzing, h]; decide)

theorem processSpectrum_of_analyzing {cfg : CfgState} {c : EccCode} {rx : RxState} (h : rx.analyzing = true) (v : List Mag)
    (w : List Word) : processSpectrum cfg c v w rx = analyzingStep cfg v (analyze v rx) :=
  if_pos h

section
variable {c : EccCode} {rx : RxState} {v : List Mag} {r : Nat} {p : ProtoId}

theorem groupStep_of_inner (hp : rx.curProto = p) (hj : (r - 8) % framesPerGroup p ≠ framesPerGroup p - 1) :
    groupStep c v r rx = accumulate rx p v ((r - 8) % framesPerGroup p) := by
  subst hp
  exact if_neg hj

/-- The last frame of a group decides it; only the header group's also writes the recording counters. -/
theorem groupStep_of_last (hp : rx.curProto = p) (hj : (r - 8) % framesPerGroup p = framesPerGroup p - 1) {g : Nat}
    (hg : (r - 8) / framesPerGroup p = g) :
    ∃ total left, groupStep c v r rx =
        { decideGroup rx p g with framesToRecord := total, framesLeftToRecord := left } ∧
      (g ≠ 1 → total = rx.framesToRecord) ∧
      (g = 1 → ∀ len, hdrCheck c (decideGroup rx p g).enc (bytesPerGroup p) = some len →
        total = BitVec.ofNat 11 (8 + nGroups len (bytesPerGroup p) * framesPerGroup p)) := by
  subst hp
  have hF := (framesPerGroup_bounds rx.curProto).1
  have hheader : headerGroup (bytesPerGroup rx.curProto) = 1 := by rw [bytesPerGroup_eq]; rfl
  have hstep : groupStep c v r rx =
      if g = 1 then refineHeader c (decideGroup rx rx.curProto g) rx.curProto r else decideGroup rx rx.curProto g := by
    subst hg
    refine (if_pos hj).trans ?_
    rw [show encDataOffset = 8 from rfl, hheader, hj, accumulate_of_edge _ (by omega)]
  rw [hstep]
  split
  · rename_i hg1
    refine ⟨_, _, refineHeader_frame .., fun h => absurd hg1 h, fun _ len hlen => ?_⟩
    rw [refineHeader, hlen]
    rfl
  · rename_i hg1
    exact ⟨_, _, rfl, fun _ => rfl, fun h => absurd h hg1⟩

end

/-! ### Groups and frames of the recorded frames -/

theorem div_succ_of_ne_last {q f : Nat} (hf : 0 < f) (h : q % f ≠ f - 1) : (q + 1) / f = q / f := by
  have hlt := Nat.mod_lt q hf
  refine Nat.succ_div_of_not_dvd fun hdvd => ?_
  have hzero := Nat.mod_eq_zero_of_dvd hdvd
  rw [mod_succ_of_ne_last hf h] at hzero
  cases hzero

theorem succ_eq_of_last {q f : Nat} (hf : 0 < f) (h : q % f = f - 1) : q + 1 = (q / f + 1) * f := by
  have hdiv := Nat.div_add_mod' q f
  rw [Nat.succ_mul]
  omega

theorem ne_zero_of_toNat_pos {a : BitVec 11} (h : 1 ≤ a.toNat) : a ≠ 0 := fun hzero => by
  rw [hzero] at h
  cases h

/-- The on-set of recorded frame `r` of a transmission whose first eight frames detected it (R176, R180). -/
def heardSet (p : ProtoId) (enc : List Byte) (r : Nat) : List Nat :=
  if r < 8 then markerSet p else sentSet p enc ((r - 8) / framesPerGroup p)

theorem emittable_heardSet (p : ProtoId) (enc : List Byte) (r : Nat) : EmittableSet p (heardSet p enc r) := by
  unfold heardSet
  split
  · exact emittable_marker p
  · exact emittable_sentSet ..

/-- The frames of the transmission that are recorded: eight marker frames and those of the data groups. -/
def heardFrames (p : ProtoId) (enc : List Byte) : Nat := 8 + ceilDiv enc.length (bytesPerGroup p) * framesPerGroup p

/-- What `r` recorded frames of the transmission of `enc` have left in the receive state: the duration is the transmission's
once the header group is decided, the decided groups hold their bytes, and the group in progress is accumulated as its on-set
says. -/
structure Heard (m : List Nat → List Mag) (p : ProtoId) (enc : List Byte) (rx : RxState) (r : Nat) : Prop where
  ring : RingEmitted m p rx
  proto : rx.curProto = p
  duration : 8 + 2 * framesPerGroup p ≤ r → rx.framesToRecord.toNat = heardFrames p enc
  bytes : rx.enc.take ((r - 8) / framesPerGroup p * bytesPerGroup p) =
    enc.take ((r - 8) / framesPerGroup p * bytesPerGroup p)
  acc : Accumulated p (sentSet p enc ((r - 8) / framesPerGroup p)) ((r - 8) % framesPerGroup p - 1) rx

/-- A reception of the transmission, `r` frames recorded. -/
structure Hearing (cfg : CfgState) (m : List Nat → List Mag) (p : ProtoId) (enc : List Byte) (rx : RxState) (r : Nat) :
    Prop where
  reception : Reception cfg rx r
  heard : Heard m p enc rx r

section
variable {cfg : CfgState} {c : EccCode} {m : List Nat → List Mag} {p : ProtoId} {pl enc : List Byte} {len : Nat}
  {rx : RxState} {r : Nat}

/-- The stream fills whole groups, at least those of the header (R117, R118). -/
theorem Encoded.groups (h : Encoded c (bytesPerGroup p) pl len enc) :
    ceilDiv enc.length (bytesPerGroup p) = nGroups len (bytesPerGroup p) ∧
    ceilDiv enc.length (bytesPerGroup p) * bytesPerGroup p = enc.length ∧
    2 ≤ ceilDiv enc.length (bytesPerGroup p) ∧ ceilDiv enc.length (bytesPerGroup p) ≤ 94 := by
  have hlen := h.length_eq
  have h140 := h.length_le
  rw [bytesPerGroup_eq] at hlen ⊢
  have hgroups : ceilDiv enc.length 3 = nGroups len 3 := by rw [hlen]; rfl
  rw [hgroups, hlen, nGroups_three, nBlocks_three, eccParity]
  omega

theorem Heard.recordFrame (h : Heard m p enc rx r) (w : List Word) : Heard m p enc (Machine.recordFrame w rx) r :=
  { h with }

/-- A recorded marker frame belongs to no group. -/
theorem Heard.succ_of_lt (h : Heard m p enc rx r) (hr : r < 8) : Heard m p enc rx (r + 1) := by
  have hstill : r + 1 - 8 = r - 8 := by omega
  exact
    { h with
      duration := fun hheader => by have := (framesPerGroup_bounds p).1; omega
      bytes := by rw [hstill]; exact h.bytes
      acc := by rw [hstill]; exact h.acc }

/-- A frame within data group `g`, not its last, is accumulated as the group's on-set says (R181). -/
theorem Heard.groupStep_of_inner (h : Heard m p enc rx r) (h8 : 8 ≤ r)
    (hinner : (r - 8) % framesPerGroup p ≠ framesPerGroup p - 1) (hch : Channel cfg m p) (hs : RxStores cfg rx)
    (hcount : 1 ≤ rx.histCount.toNat) (hbound : AccBound rx ((r - 8) % framesPerGroup rx.curProto)) :
    Heard m p enc (groupStep c (m (sentSet p enc ((r - 8) / framesPerGroup p))) r rx) (r + 1) := by
  have hF := (framesPerGroup_bounds p).1
  have hq : r + 1 - 8 = r - 8 + 1 := by omega
  have hlt := Nat.mod_lt (r - 8) (by omega : 0 < framesPerGroup p)
  have hdiv := div_succ_of_ne_last (by omega) hinner
  have hmod := mod_succ_of_ne_last (by omega) hinner
  rw [h.proto] at hbound
  have hframe := (accumulate_frame rx p (m (sentSet p enc ((r - 8) / framesPerGroup p))) ((r - 8) % framesPerGroup p)).1
  rw [Machine.groupStep_of_inner h.proto hinner]
  exact
    { ring := by rw [hframe]; exact h.ring
      proto := (accumulate_curProto ..).trans h.proto
      duration := fun hheader => by
        rw [hframe]
        refine h.duration (Nat.le_of_not_lt fun hlater => ?_)
        rw [show r - 8 + 1 = 2 * framesPerGroup p by omega, Nat.mul_mod_left] at hmod
        cases hmod
      bytes := by rw [hq, hdiv, hframe]; exact h.bytes
      acc := by
        rw [hq, hdiv, hmod]
        exact h.acc.accumulate hch hs h.ring hcount hbound (emittable_sentSet ..) (by omega) }

section
variable (hcode : Encoded c (bytesPerGroup p) pl len enc)
include hcode

/-- The duration the header group's refinement computes is the transmission's (R183). -/
theorem Encoded.refined_toNat :
    (BitVec.ofNat 11 (8 + nGroups len (bytesPerGroup p) * framesPerGroup p)).toNat = heardFrames p enc := by
  obtain ⟨hgroups, -, -, h94⟩ := hcode.groups
  have hfits := Nat.mul_le_mul h94 (framesPerGroup_bounds p).2
  rw [← hgroups]
  exact Nat.mod_eq_of_lt (by omega)

/-- The bytes of the header's two groups are block 0 (R117, R121). -/
theorem Encoded.hdrCheck_of_groups {e : List Byte} (he : e.take (2 * bytesPerGroup p) = enc.take (2 * bytesPerGroup p)) :
    hdrCheck c e (bytesPerGroup p) = some len := by
  refine hcode.hdrCheck_of_take ?_
  rw [bytesPerGroup_eq] at he ⊢
  exact he

/-- Deciding group `g` at its last frame recovers the group's bytes. -/
theorem Heard.decideGroup_enc_take {g : Nat} (h : Heard m p enc rx r) (hg : (r - 8) / framesPerGroup p = g)
    (hlast : (r - 8) % framesPerGroup p = framesPerGroup p - 1) (hlt : g < ceilDiv enc.length (bytesPerGroup p))
    (hroom : rx.enc.length = rxEncCap) :
    (decideGroup rx p g).enc.take ((g + 1) * bytesPerGroup p) = enc.take ((g + 1) * bytesPerGroup p) := by
  obtain ⟨-, hwhole, -, h94⟩ := hcode.groups
  have hacc := h.acc
  have hbytes := h.bytes
  rw [hlast, hg] at hacc
  rw [hg] at hbytes
  refine hacc.decideGroup_enc_take ?_ (hwhole ▸ Nat.mul_le_mul_right _ hlt) ?_ hbytes
  · have := (framesPerGroup_bounds p).1
    omega
  · rw [hroom, bytesPerGroup_eq, rxEncCap]
    omega

/-- The last frame of data group `g` decides the group (R182), and the header group's refines the duration (R183). -/
theorem Heard.groupStep_of_last (h : Heard m p enc rx r) (h8 : 8 ≤ r) (hr : r < heardFrames p enc)
    (hlast : (r - 8) % framesPerGroup p = framesPerGroup p - 1) (hroom : rx.enc.length = rxEncCap) (v : List Mag) :
    Heard m p enc (groupStep c v r rx) (r + 1) := by
  have hF := (framesPerGroup_bounds p).1
  obtain ⟨g, hg⟩ : ∃ g, (r - 8) / framesPerGroup p = g := ⟨_, rfl⟩
  have hlt : g < ceilDiv enc.length (bytesPerGroup p) :=
    hg ▸ Nat.div_lt_of_lt_mul (by rw [heardFrames] at hr; rw [Nat.mul_comm]; omega)
  have hnext : r + 1 - 8 = (g + 1) * framesPerGroup p := by
    rw [← hg, ← succ_eq_of_last (by omega) hlast, Nat.sub_add_comm h8]
  have htake := h.decideGroup_enc_take hcode hg hlast hlt hroom
  obtain ⟨total, left, heq, hkeep, hrefine⟩ := Machine.groupStep_of_last (c := c) (v := v) h.proto hlast hg
  rw [heq]
  exact
    { ring := h.ring
      proto := h.proto
      duration := fun hheader => by
        have hg2 : 2 ≤ g + 1 := Nat.le_of_mul_le_mul_right (by omega : 2 * framesPerGroup p ≤ _) (by omega)
        obtain rfl | hlater : g = 1 ∨ 3 ≤ g + 1 := by omega
        · rw [hrefine rfl len (hcode.hdrCheck_of_groups htake)]
          exact hcode.refined_toNat
        · have hthree := Nat.mul_le_mul_right (framesPerGroup p) hlater
          rw [hkeep (by omega)]
          exact h.duration (by omega)
      bytes := by rw [hnext, Nat.mul_div_cancel _ (by omega)]; exact htake
      acc := by rw [hnext, Nat.mul_mod_left]; exact accumulated_of_zero rfl rfl p _ }

end

/-! ### A frame of the reception as a whole -/

section
variable (hcode : Encoded c (bytesPerGroup p) pl len enc)
include hcode

/-- Until the transmission's last frame the duration, provisional or refined, is longer than what is recorded. -/
theorem Hearing.lt_framesToRecord (h : Hearing cfg m p enc rx r) (hr : r < heardFrames p enc) :
    r < rx.framesToRecord.toNat := by
  by_cases hheader : 8 + 2 * framesPerGroup p ≤ r
  · rwa [h.heard.duration hheader]
  · obtain ⟨-, -, -, h94⟩ := hcode.groups
    have hprov := h.reception.recording.provisional
    rw [h.heard.proto, bytesPerGroup_eq, longestRecording_eq] at hprov
    rw [hprov (Nat.not_le.mp hheader)]
    exact hr.trans_le (Nat.add_le_add_left (Nat.mul_le_mul_right _ h94) 8)

theorem Hearing.framesLeft_pos (h : Hearing cfg m p enc rx r) (hr : r < heardFrames p enc) :
    1 ≤ rx.framesLeftToRecord.toNat := by
  have hlt := h.lt_framesToRecord hcode hr
  have hcount := h.reception.recording.count
  omega

theorem Hearing.framesLeft_ne_zero (h : Hearing cfg m p enc rx r) (hr : r < heardFrames p enc) :
    rx.framesLeftToRecord ≠ 0 :=
  ne_zero_of_toNat_pos (h.framesLeft_pos hcode hr)

theorem Hearing.framesLeft_eq_zero (h : Hearing cfg m p enc rx (heardFrames p enc)) : rx.framesLeftToRecord = 0 := by
  obtain ⟨-, -, h2, -⟩ := hcode.groups
  have hduration := h.heard.duration (Nat.add_le_add_left (Nat.mul_le_mul_right _ h2) 8)
  have hcount := h.reception.recording.count
  exact BitVec.eq_of_toNat_eq (by omega : rx.framesLeftToRecord.toNat = 0)

theorem Hearing.inv (h : Hearing cfg m p enc rx r) (hr : r < heardFrames p enc) : RxInv cfg rx :=
  .of_recording h.reception.stores h.reception.recording (h.framesLeft_ne_zero hcode hr) h.reception.acc

variable (hch : Channel cfg m p)
include hch

theorem Hearing.analyze (h : Hearing cfg m p enc rx r) (hr : r < heardFrames p enc) {x : List Nat} (hx : EmittableSet p x) :
    Hearing cfg m p enc (Machine.analyze (m x) rx) r where
  reception :=
    { stores := ((h.inv hcode hr).analyze (hch.tones.length x hx)).stores
      recording := { h.reception.recording with }
      acc := h.reception.acc }
  heard := { h.heard with ring := h.heard.ring.analyze (h.inv hcode hr) hx }

/-- The next frame of the transmission is recorded and, from frame 8 on, joins its group. -/
theorem Hearing.hearFrame (h : Hearing cfg m p enc rx r) (hr : r < heardFrames p enc) (hcount : 1 ≤ rx.histCount.toNat)
    (w : List Word) : Hearing cfg m p enc (Machine.hearFrame c (m (heardSet p enc r)) w rx) (r + 1) := by
  have hleft := h.framesLeft_pos hcode hr
  have hs := h.reception.stores.recordFrame h.reception.recording hleft w
  have hrec := h.reception.recording.recordFrame hleft w
  have hacc : AccBound (Machine.recordFrame w rx) ((r - 8) % framesPerGroup rx.curProto) := h.reception.acc
  have hheard := h.heard.recordFrame w
  rw [Machine.hearFrame, h.reception.recording.recordedIndex_eq, heardSet]
  by_cases h8 : r < 8
  · rw [if_neg (Nat.not_le.mpr h8)]
    refine ⟨⟨hs, hrec, ?_⟩, hheard.succ_of_lt h8⟩
    rwa [show r - 8 = r + 1 - 8 by omega] at hacc
  · rw [if_neg h8, if_pos (Nat.le_of_not_lt h8)]
    refine ⟨.groupStep hs hrec (Nat.le_of_not_lt h8) hacc c _, ?_⟩
    by_cases hlast : (r - 8) % framesPerGroup p = framesPerGroup p - 1
    · exact hheard.groupStep_of_last hcode (Nat.le_of_not_lt h8) hr hlast hs.enc_length _
    · exact hheard.groupStep_of_inner (Nat.le_of_not_lt h8) hlast hch hs hcount hacc

/-- `PROCESS_FRAME` on the next frame: it is heard, and after the last one Decoding follows. -/
theorem Hearing.processSpectrum (h : Hearing cfg m p enc rx r) (hr : r < heardFrames p enc) (w : List Word) :
    ∃ rx', Hearing cfg m p enc rx' (r + 1) ∧
      Machine.processSpectrum cfg c (m (heardSet p enc r)) w rx =
        if r + 1 = heardFrames p enc then decoding c rx' else rx' := by
  have hx := emittable_heardSet p enc r
  have hnext := (h.analyze hcode hch hr hx).hearFrame hcode hch hr ((h.inv hcode hr).histCount_analyze_pos _) w
  refine ⟨_, hnext, ?_⟩
  rw [processSpectrum_of_receiving h.reception.recording.analyzing_eq, receivingStep_eq]
  split
  · rename_i hzero
    rw [if_pos]
    by_contra hmore
    exact hnext.framesLeft_ne_zero hcode (by omega) hzero
  · rename_i hleft
    rw [if_neg]
    intro hend
    exact hleft ((hend ▸ hnext : Hearing cfg m p enc _ (heardFrames p enc)).framesLeft_eq_zero hcode)

end

/-! ### Decoding the reception -/

/-- What the end of a successful reception shows the host (R185, R186). -/
structure Delivered (p : ProtoId) (pl : List Byte) (len : Nat) (rx : RxState) : Prop where
  analyzing : rx.analyzing = true
  rxNew : rx.rxNew = true
  dataLength : rx.dataLength.toNat = len
  data : rx.data.take len = pl
  protocolId : rx.protocolId = p
  corrected : rx.corrected = false

/-- With all groups decided, `rxEnc` begins with the encoded stream, and Decoding surfaces its payload. -/
theorem Hearing.delivered (h : Hearing cfg m p enc rx (heardFrames p enc)) (hcode : Encoded c (bytesPerGroup p) pl len enc) :
    Delivered p pl len (decoding c rx) := by
  obtain ⟨-, hwhole, -, -⟩ := hcode.groups
  have hgroups : (heardFrames p enc - 8) / framesPerGroup p = ceilDiv enc.length (bytesPerGroup p) := by
    rw [heardFrames, Nat.add_sub_cancel_left, Nat.mul_div_cancel _ (by have := (framesPerGroup_bounds p).1; omega)]
  have hbytes := h.heard.bytes
  rw [hgroups, hwhole, List.take_length] at hbytes
  have hdecode : fecDecode c rx.enc (bytesPerGroup rx.curProto) = some { pl := pl, len := len, corrected := false } := by
    rw [h.heard.proto, ← List.take_append_drop enc.length rx.enc, hbytes]
    exact hcode.fecDecode_append _
  rw [decoding, hdecode]
  exact
    { analyzing := rfl
      rxNew := rfl
      dataLength := Nat.mod_eq_of_lt (hcode.length_le.trans_lt (by decide))
      data := List.take_left' hcode.payload_length
      protocolId := h.heard.proto
      corrected := rfl }

end

end Sys2Proof.Machine
end

section
/-! PROOFS of the family `42_spectrum_analyzer.md`, part 6: the marker frames that are detected (R176 to R179), from reset to the
start of the reception. -/

namespace Sys2Proof.Machine

open Sys2Proof.Config

/-- The run of detections of `d` after one more (R177, R178). -/
def countRun (rx : RxState) (d : ProtoId) : RxState :=
  { rx with cand := some d, framesLeftToAnalyze := countDetection rx d }

section
variable {cfg : CfgState} {c : EccCode} {m : List Nat → List Mag} {p : ProtoId} {rx : RxState} {k : Nat}

theorem analyzingStep_of_detect {v : List Mag} {d : ProtoId} (hd : detect cfg rx v = some d) :
    analyzingStep cfg v rx = if countDetection rx d = 0 then startReceiving (countRun rx d) d else countRun rx d := by
  rw [analyzingStep, hd]
  rfl

theorem RxStores.countRun (h : RxStores cfg rx) (d : ProtoId) : RxStores cfg (countRun rx d) := { h with }

/-- Analyzing, after `k` marker frames of the transmission. -/
structure Listening (cfg : CfgState) (m : List Nat → List Mag) (p : ProtoId) (rx : RxState) (k : Nat) : Prop where
  inv : RxInv cfg rx
  ring : RingEmitted m p rx
  analyzing : rx.analyzing = true
  left : rx.framesLeftToAnalyze.toNat + k = 8
  cand : k = 0 ∨ rx.cand = some p

theorem listening_afterReset {straps : Straps} (hlegal : legalConfig straps = true) (m : List Nat → List Mag)
    (p : ProtoId) : Listening (CfgState.afterReset straps) m p (RxState.afterReset straps) 0 where
  inv := rxInv_afterReset hlegal
  ring := fun i hi => absurd hi (Nat.not_lt_zero i)
  analyzing := rfl
  left := rfl
  cand := .inl rfl

/-- Each marker frame takes one off the eight, the first off a fresh count. -/
theorem Listening.countDetection_toNat (h : Listening cfg m p rx k) (hk : k < 8) :
    (countDetection rx p).toNat + (k + 1) = 8 := by
  have hfta : rx.framesToAnalyze.toNat = 8 := h.inv.framesToAnalyze_eq
  have hleft := h.left
  unfold countDetection
  split
  · rw [toNat_sub_one (by omega)]; omega
  · rename_i hcand
    have hk0 := h.cand.resolve_right hcand
    rw [toNat_sub_one (by omega)]; omega

variable (hch : Channel cfg m p)
include hch

theorem Listening.analyze (h : Listening cfg m p rx k) : Listening cfg m p (Machine.analyze (m (markerSet p)) rx) k where
  inv := h.inv.analyze (hch.tones.length _ (emittable_marker p))
  ring := h.ring.analyze h.inv (emittable_marker p)
  analyzing := h.analyzing
  left := h.left
  cand := h.cand

/-- A marker frame is detected and counted. -/
theorem Listening.processSpectrum_eq (h : Listening cfg m p rx k) (w : List Word) {rx1 : RxState}
    (h1 : Machine.analyze (m (markerSet p)) rx = rx1) :
    processSpectrum cfg c (m (markerSet p)) w rx =
      if countDetection rx1 p = 0 then startReceiving (countRun rx1 p) p else countRun rx1 p := by
  subst h1
  have h1 := h.analyze hch
  have hcount := h.inv.histCount_analyze_pos (m (markerSet p))
  rw [processSpectrum_of_analyzing h.analyzing, analyzingStep_of_detect (detect_marker hch h1.inv.stores h1.ring hcount)]

theorem Listening.processSpectrum (h : Listening cfg m p rx k) (hk : k < 7) (c : EccCode) (w : List Word) :
    Listening cfg m p (Machine.processSpectrum cfg c (m (markerSet p)) w rx) (k + 1) := by
  have hinv := h.inv.processSpectrum c (hch.tones.length _ (emittable_marker p)) w
  have h1 := h.analyze hch
  have hcount := h1.countDetection_toNat (by omega)
  rw [h.processSpectrum_eq hch w rfl, if_neg (ne_zero_of_toNat_pos (by omega))] at hinv ⊢
  exact { inv := hinv, ring := h1.ring, analyzing := h.analyzing, left := hcount, cand := .inr rfl }

/-- The eighth marker frame starts the reception. -/
theorem Listening.startReceiving (h : Listening cfg m p rx 7) (w : List Word) (enc : List Byte) :
    Hearing cfg m p enc (Machine.processSpectrum cfg c (m (markerSet p)) w rx) 0 := by
  have h1 := h.analyze hch
  have hcount := h1.countDetection_toNat (by decide)
  have hzero : countDetection (Machine.analyze (m (markerSet p)) rx) p = 0 :=
    BitVec.eq_of_toNat_eq (Nat.add_right_cancel hcount : _ = 0)
  rw [h.processSpectrum_eq hch w rfl, if_pos hzero]
  exact
    { reception :=
        { stores := (h1.inv.stores.countRun p).startReceiving p
          recording := recording_startReceiving hch.usable hzero
          acc := accBound_of_zero rfl rfl _ }
      heard :=
        { ring := h1.ring
          proto := rfl
          duration := fun hheader => by omega
          bytes := by rw [Nat.zero_sub, Nat.zero_div, Nat.zero_mul, List.take_zero, List.take_zero]
          acc := by rw [Nat.zero_sub, Nat.zero_mod]; exact accumulated_of_zero rfl rfl p _ } }

end

end Sys2Proof.Machine
end

section
/-! PROOFS of the family `42_spectrum_analyzer.md`, part 7: the frames of a whole transmission, one after another (O57). -/

namespace Sys2Proof.Machine

open Sys2Proof.Config

section
variable {cfg : CfgState} {c : EccCode} {rx : RxState}

theorem processSpectra_append (l l' : List (List Mag × List Word)) (rx : RxState) :
    processSpectra cfg c (l ++ l') rx = processSpectra cfg c l' (processSpectra cfg c l rx) := by
  induction l generalizing rx with
  | nil => rfl
  | cons f l ih => exact ih _

/-- What every frame of a row takes from `P k` to `P (k + 1)` holds at its end. -/
theorem processSpectra_range_induction {P : RxState → Nat → Prop} {f : Nat → List Mag × List Word} {n : Nat}
    (h0 : P rx 0) (hstep : ∀ k rx, k < n → P rx k → P (processSpectrum cfg c (f k).1 (f k).2 rx) (k + 1)) :
    P (processSpectra cfg c ((List.range n).map f) rx) n := by
  induction n with
  | zero => exact h0
  | succ n ih =>
    rw [List.range_succ, List.map_append, processSpectra_append]
    exact hstep n _ (Nat.lt_succ_self n) (ih fun k rx hk => hstep k rx (hk.trans (Nat.lt_succ_self n)))

end

/-! ### The frames of a transmission in order -/

theorem flatMap_replicate_eq_map_div {α : Type} (f : Nat → α) {k : Nat} (hk : 0 < k) (n : Nat) :
    (List.range n).flatMap (fun g => List.replicate k (f g)) = (List.range (n * k)).map fun q => f (q / k) := by
  induction n with
  | zero => simp
  | succ n ih =>
    have hlast : (List.range k).map (fun i => f ((n * k + i) / k)) = List.replicate k (f n) := by
      refine (List.map_congr_left fun i hi => ?_).trans (by rw [List.map_const', List.length_range])
      rw [Nat.mul_comm, Nat.mul_add_div hk, Nat.div_eq_of_lt (List.mem_range.mp hi), Nat.add_zero]
    rw [List.range_succ, List.flatMap_append, List.flatMap_singleton, ih, Nat.succ_mul, List.range_add, List.map_append,
      List.map_map, ← hlast]
    rfl

/-- A transmission is eight marker frames, then the frames the receiver records. -/
theorem transmissionSets_eq (p : ProtoId) (enc : List Byte) :
    transmissionSets p enc =
      (List.range 8).map (fun _ => markerSet p) ++ (List.range (heardFrames p enc)).map (heardSet p enc) := by
  have hF := (framesPerGroup_bounds p).1
  have hmarkers : (List.range 8).map (heardSet p enc) = List.replicate 8 (markerSet p) := by
    refine (List.map_congr_left fun r hr => if_pos (List.mem_range.mp hr)).trans ?_
    rw [List.map_const', List.length_range]
  have hdata : (List.range (ceilDiv enc.length (bytesPerGroup p) * framesPerGroup p)).map (fun q => heardSet p enc (8 + q)) =
      (List.range (ceilDiv enc.length (bytesPerGroup p))).flatMap fun g => List.replicate (framesPerGroup p) (sentSet p enc g) := by
    rw [flatMap_replicate_eq_map_div _ (by omega)]
    refine List.map_congr_left fun q _ => ?_
    rw [heardSet, if_neg (by omega), Nat.add_sub_cancel_left]
  rw [heardFrames, List.range_add, List.map_append, List.map_map, hmarkers, List.map_const', List.length_range,
    ← List.append_assoc, ← List.replicate_add]
  exact congrArg (List.replicate 16 (markerSet p) ++ ·) hdata.symm

section
variable {cfg : CfgState} {c : EccCode} {m : List Nat → List Mag} {p : ProtoId} {pl enc : List Byte} {len : Nat}
  {rx : RxState} (hch : Channel cfg m p) (x : List Nat → List Word)
include hch

theorem hearing_after_markers (h : Listening cfg m p rx 0) (enc : List Byte) :
    Hearing cfg m p enc (processSpectra cfg c ((List.range 8).map fun _ => (m (markerSet p), x (markerSet p))) rx) 0 := by
  rw [List.range_succ, List.map_append, processSpectra_append]
  have h7 : Listening cfg m p (processSpectra cfg c ((List.range 7).map fun _ => (m (markerSet p), x (markerSet p))) rx) 7 :=
    processSpectra_range_induction h fun k rx hk hl => hl.processSpectrum hch hk c _
  exact h7.startReceiving hch _ enc

theorem delivered_after_groups (hcode : Encoded c (bytesPerGroup p) pl len enc) (h : Hearing cfg m p enc rx 0) :
    Delivered p pl len (processSpectra cfg c
      ((List.range (heardFrames p enc)).map fun r => (m (heardSet p enc r), x (heardSet p enc r))) rx) := by
  obtain ⟨last, hlast⟩ := Nat.exists_eq_add_one_of_ne_zero (by rw [heardFrames]; omega : heardFrames p enc ≠ 0)
  have hbefore : Hearing cfg m p enc (processSpectra cfg c
      ((List.range last).map fun r => (m (heardSet p enc r), x (heardSet p enc r))) rx) last := by
    refine processSpectra_range_induction (P := Hearing cfg m p enc) h fun k rx hk hl => ?_
    obtain ⟨rx', h', heq⟩ := hl.processSpectrum hcode hch (by omega) (x (heardSet p enc k))
    rw [heq, if_neg (by omega)]
    exact h'
  obtain ⟨rx', h', heq⟩ := hbefore.processSpectrum hcode hch (by omega) (x (heardSet p enc last))
  rw [if_pos hlast.symm] at heq
  rw [hlast, List.range_succ, List.map_append, processSpectra_append, List.map_singleton, processSpectra, processSpectra, heq]
  exact (hlast ▸ h').delivered hcode

end

/-- Settles O57: eight marker frames start the reception (`hearing_after_markers`), every further frame is heard as it was sent
(`Hearing.processSpectrum`), and Decoding after the last one surfaces the payload (`Hearing.delivered`). -/
theorem idealSpectraDeliverThePayload : Obligations.IdealSpectraDeliverThePayload := by
  unfold Obligations.IdealSpectraDeliverThePayload
  intro straps c p m x pl enc len hlegal hok hsep hparity hclean h1 h140 hpl henc
  have hch : Channel (CfgState.afterReset straps) m p :=
    { cfgInv := cfgInv_afterReset straps
      legal := by rw [CfgState.cfgFault_afterReset, hlegal]; rfl
      usable := hok
      tones := hsep }
  have hcode : Encoded c (bytesPerGroup p) pl len enc :=
    { block_pos := by rw [bytesPerGroup_eq]; decide
      code := ⟨hparity, hclean⟩
      length_pos := h1
      length_le := h140
      payload_length := hpl
      encodes := henc }
  have hstart := hearing_after_markers (c := c) hch x (listening_afterReset hlegal m p) enc
  obtain ⟨hana, hnew, hlength, hdata, hproto, hcorrected⟩ := delivered_after_groups hch x hcode hstart
  rw [transmissionSets_eq, List.map_append, List.map_map, List.map_map, processSpectra_append]
  exact ⟨hana, hnew, hlength, hdata, hproto, hcorrected⟩

end Sys2Proof.Machine
end

section
/-! PROOFS of the family `43_transmit.md`, part 1: the transmit accessors (O34), the two outcomes of `TXINIT` (O26, O27) and of
`TXSEND` (O28). -/

namespace Sys2Proof.Machine

open Sys2Proof.Config

/-! ### `TXHAS` and `TXTAKE16` (R155, R156) -/

/-- Settles O34: both commands are plain answers, the second after its hand-over. -/
theorem transmitAccessors : Obligations.TransmitAccessors := by
  unfold Obligations.TransmitAccessors
  refine fun s hc => ⟨whenConfigured_of_legal hc _, ?_⟩
  rw [exec, execTxtake16, whenConfigured_of_legal hc, answer_eq, ← BitVec.ofNat_toNat]
  rfl

/-! ### `TXINIT` (R140 to R144) -/

theorem protoOf_eq_some_iff {n : Nat} {p : ProtoId} : protoOf n = some p ↔ n = p.val := by
  unfold protoOf
  split
  · rw [Option.some_inj, Fin.ext_iff]
  · exact iff_of_false nofun (by omega)

/-- `INIT_VALID` is its four conditions (R141). -/
theorem initValid_eq_some_iff {cfg : CfgState} {length proto volume : Nat} {p : ProtoId} :
    initValid cfg length proto volume = some p ↔
      (1 ≤ length ∧ length ≤ 140) ∧ (proto = p.val ∧ protoOk cfg p = true) ∧ volume ≤ 100 := by
  constructor
  · intro h
    obtain ⟨hlen, hp, hok, hvol⟩ := initValid_eq_some h
    exact ⟨lengthOk_iff.mp hlen, ⟨protoOf_eq_some_iff.mp hp, hok⟩, hvol⟩
  · rintro ⟨hlen, ⟨hp, hok⟩, hvol⟩
    simp [initValid, protoOf_eq_some_iff.mpr hp, lengthOk_iff.mpr hlen, hok, volMax, hvol]

section
variable {s : State} {proto : BitVec 4} {volume : BitVec 8} {length : BitVec 12} (hc : s.cfg.cfgFault = false)
  (hle : length.toNat ≤ s.io.hdi.length)
include hc hle

theorem exec_txinit_of_invalid (hv : initValid s.cfg length.toNat proto.toNat volume.toNat = none) :
    exec (.txinit proto volume length) s =
      .next (State.answered { s with io := { s.io with hdi := s.io.hdi.drop length.toNat } } 0) := by
  simp only [exec, execTxinit, whenConfigured_of_legal hc, popBytes_eq_some_iff.mpr ⟨hle, rfl, rfl⟩, hv, answer_eq]

theorem exec_txinit_of_valid {p : ProtoId} {enc : List Byte}
    (hv : initValid s.cfg length.toNat proto.toNat volume.toNat = some p)
    (henc : fecEncode (eccCode s.prims.ecc) (s.io.hdi.take length.toNat) length.toNat (bytesPerGroup p) = some enc) :
    exec (.txinit proto volume length) s =
      .next (State.answered
        { s with
          io := { s.io with hdi := s.io.hdi.drop length.toNat }
          tx := commitInit s.tx p volume.toNat length.toNat (s.io.hdi.take length.toNat) enc } 1) := by
  simp only [exec, execTxinit, whenConfigured_of_legal hc, popBytes_eq_some_iff.mpr ⟨hle, rfl, rfl⟩, hv, henc, answer_eq]

end

theorem overwrite_zero {α : Type} (buf data : List α) : overwrite buf 0 data = data ++ buf.drop data.length := by
  simp [overwrite]

/-- Settles O26: the operands pass `INIT_VALID` (`initValid_eq_some_iff`), a length it accepts is encoded, and the commit is
written out with its buffers' old tails. -/
theorem txinitCommits : Obligations.TxinitCommits := by
  unfold Obligations.TxinitCommits
  intro s proto volume length p hc hle hlen1 hlen2 hproto hok hvol
  have hv := initValid_eq_some_iff.mpr ⟨⟨hlen1, hlen2⟩, ⟨hproto, hok⟩, hvol⟩
  have henc := fecEncode_eq_some (c := eccCode s.prims.ecc) (pl := s.io.hdi.take length.toNat) (k := bytesPerGroup p)
    (lengthOk_iff.mpr ⟨hlen1, hlen2⟩)
  refine ⟨_, henc, ?_⟩
  rw [exec_txinit_of_valid hc hle hv henc, commitInit, overwrite_zero, overwrite_zero, List.length_take_of_le hle]
  rfl

/-- Settles O27: without its four conditions `INIT_VALID` names no protocol. -/
theorem txinitFailureChangesNothing : Obligations.TxinitFailureChangesNothing := by
  unfold Obligations.TxinitFailureChangesNothing
  intro s proto volume length hc hle hfail
  refine exec_txinit_of_invalid hc hle (Option.eq_none_iff_forall_ne_some.mpr fun p hp => hfail ?_)
  obtain ⟨hlen, hproto, hvol⟩ := initValid_eq_some_iff.mp hp
  exact ⟨hlen, ⟨p, hproto⟩, hvol⟩

/-! ### `TXSEND` (R145, R147, R233) -/

theorem exec_txsend_of_idle {s : State} (hc : s.cfg.cfgFault = false) (hd : s.tx.hasData = false) :
    exec .txsend s = .next (s.answered 0) := by
  rw [exec, execTxsend, whenConfigured_of_legal hc, if_neg (by simp [hd]), answer_eq]

/-- `TXSEND` in mid-transmission, `smp` being the samples of the present unit. -/
theorem exec_txsend_of_sending {s : State} {smp : List I16} (hc : s.cfg.cfgFault = false) (hd : s.tx.hasData = true)
    (hsmp : unitSamples s.cfg.txSpf.toNat s.tx = smp) :
    exec .txsend s = .next (State.answered
      (pushAout { s with tx := advanceUnit s.tx smp } (outputBytes s.cfg.ssOut.toNat smp))
      (BitVec.ofNat 32 (smp.length * s.cfg.ssOut.toNat))) := by
  subst hsmp
  rw [exec, execTxsend, whenConfigured_of_legal hc, if_pos hd, answer_eq]

theorem unitSamples_eq (l : Nat) (tx : TxState) :
    unitSamples l tx =
      if tx.unit.toNat = 0 then preamble l tx.protocolId tx.volume.toNat
      else dataGroup l tx tx.protocolId (tx.unit.toNat - 1) tx.volume.toNat :=
  if_congr (BitVec.toNat_eq (y := 0)) rfl rfl

/-- In mid-transmission the unit `txGroups` is the last one (R147). -/
theorem advanceUnit_hasData_of_sending {tx : TxState} (smp : List I16) (hd : tx.hasData = true) :
    (advanceUnit tx smp).hasData = decide (tx.unit.toNat ≠ tx.groups.toNat) := by
  by_cases h : tx.unit.toNat = tx.groups.toNat <;> simp [hd, h, Nat.add_comm]

theorem advanceUnit_of_sending {tx : TxState} (smp : List I16) (hd : tx.hasData = true) :
    advanceUnit tx smp =
      { tx with
        out := smp ++ tx.out.drop smp.length
        outCount := BitVec.ofNat 17 smp.length
        amp16Count := BitVec.ofNat 17 smp.length
        unit := tx.unit + 1
        hasData := decide (tx.unit.toNat ≠ tx.groups.toNat) } := by
  rw [← advanceUnit_hasData_of_sending smp hd, ← overwrite_zero]
  rfl

/-- Settles O28: the two branches of `TXSEND`, with the state after the unit written out (`advanceUnit_of_sending`). -/
theorem txsendEmitsOneUnit : Obligations.TxsendEmitsOneUnit := by
  unfold Obligations.TxsendEmitsOneUnit
  refine fun s hc => ⟨exec_txsend_of_idle hc, fun hd => ⟨_, rfl, ?_⟩⟩
  rw [exec_txsend_of_sending hc hd (unitSamples_eq ..), advanceUnit_of_sending _ hd]
  rfl

end Sys2Proof.Machine
end

section
/-! PROOFS of the family `43_transmit.md`, part 2: a transmission in progress emits exactly its remaining units (O35). -/

namespace Sys2Proof.Machine

open Sys2Proof.Config

/-! ### Sizes of an emitted unit -/

section
variable {c : CfgState} (hinv : CfgInv c) (hc : c.cfgFault = false)
include hinv hc

/-- `L` is at least 1 (R251 (g)) and fits its register. -/
theorem CfgInv.txSpf_pos : 0 < c.txSpf.toNat := by
  have hp := hinv.legal hc
  obtain ⟨-, -, -, -, -, -, hl1, hl2⟩ := legalConfig_iff.mp hp
  have hreg : c.txSpf.toNat = c.straps.spf.toNat * c.straps.srOut.toNat / c.straps.srIn.toNat := by
    rw [hinv, CfgState.afterReset_of_legal hp]
    exact Nat.mod_eq_of_lt (hl2.trans_lt (by decide))
  omega

theorem CfgInv.ssOut_cases : c.ssOut.toNat = 2 ∨ c.ssOut.toNat = 4 := by
  obtain ⟨-, -, -, -, hss, -⟩ := legalConfig_iff.mp (hinv.legal hc)
  exact hss

/-- Each sample takes `ssOut` bytes on `AOUT` (R154). -/
theorem CfgInv.outputBytes_length (smp : List I16) :
    (outputBytes c.ssOut.toNat smp).length = smp.length * c.ssOut.toNat := by
  rw [Machine.outputBytes_length]
  rcases hinv.ssOut_cases hc with h | h <;> simp [h]

end

/-- A unit has at least one frame. -/
theorem le_unitSamples_length (l : Nat) (tx : TxState) : l ≤ (unitSamples l tx).length := by
  unfold unitSamples
  split
  · rw [preamble_length]; omega
  · rw [dataGroup_length]
    exact Nat.le_mul_of_pos_left l (Nat.lt_of_lt_of_le (by decide) (framesPerGroup_bounds _).1)

/-! ### One `TXSEND` of a transmission -/

/-- A state in mid-transmission: R158's premise. -/
structure Sending (s : State) : Prop where
  inv : s.Inv
  configured : s.cfg.cfgFault = false
  hasData : s.tx.hasData = true

/-- The step from `s` to `t` pushes a non-zero number of bytes on `AOUT` and announces it (R145). -/
def Emits (s t : State) : Prop :=
  ∃ v : Word, v ≠ 0 ∧ t.io.rsp = s.io.rsp ++ [0, v] ∧ t.io.aout.length = s.io.aout.length + v.toNat

section
variable {s : State} (h : Sending s)
include h

theorem Sending.unit_le : s.tx.unit.toNat ≤ s.tx.groups.toNat := by
  obtain ⟨hunit, -⟩ := (h.inv.tx h.configured).sending h.hasData
  exact hunit

/-- A unit's bytes are at least one and at most 16 * 4096 * 4, so the value word holds their number. -/
theorem Sending.byteCount {smp : List I16} (hsmp : unitSamples s.cfg.txSpf.toNat s.tx = smp) :
    0 < smp.length * s.cfg.ssOut.toNat ∧ smp.length * s.cfg.ssOut.toNat < 2 ^ 32 := by
  have hpos := h.inv.cfg.txSpf_pos h.configured
  have hmax : s.cfg.txSpf.toNat ≤ 4096 := h.inv.cfg.txSpf_le h.configured
  have hge := le_unitSamples_length s.cfg.txSpf.toNat s.tx
  have hle := unitSamples_length_le s.cfg.txSpf.toNat s.tx
  rw [hsmp] at hge hle
  rcases h.inv.cfg.ssOut_cases h.configured with hss | hss <;> rw [hss] <;> omega

/-- `TXSEND` emits the unit and moves on to the next, within the transmission or past its last unit. -/
theorem Sending.txsend :
    ∃ t, exec .txsend s = .next t ∧ Emits s t ∧ t.Inv ∧ t.cfg.cfgFault = false ∧ t.tx.groups = s.tx.groups ∧
      t.tx.unit = s.tx.unit + 1 ∧ t.tx.hasData = decide (s.tx.unit.toNat ≠ s.tx.groups.toNat) := by
  obtain ⟨smp, hsmp⟩ : ∃ smp, unitSamples s.cfg.txSpf.toNat s.tx = smp := ⟨_, rfl⟩
  have hexec := exec_txsend_of_sending h.configured h.hasData hsmp
  obtain ⟨hpos, hlt⟩ := h.byteCount hsmp
  have hv : (BitVec.ofNat 32 (smp.length * s.cfg.ssOut.toNat)).toNat = smp.length * s.cfg.ssOut.toNat :=
    Nat.mod_eq_of_lt hlt
  refine ⟨_, hexec, ⟨_, fun h0 => ?_, rfl, ?_⟩, h.inv.of_respondsAfter (exec_next hexec), h.configured, rfl, rfl,
    advanceUnit_hasData_of_sending smp h.hasData⟩
  · rw [h0] at hv
    exact hpos.ne hv
  · rw [hv, State.answered_aout, pushAout_aout, List.length_append, h.inv.cfg.outputBytes_length h.configured]

/-- Before the last unit the transmission goes on. -/
theorem Sending.txsend_of_lt (hlt : s.tx.unit.toNat < s.tx.groups.toNat) :
    ∃ t, exec .txsend s = .next t ∧ Emits s t ∧ Sending t ∧ t.tx.groups = s.tx.groups ∧
      t.tx.unit.toNat = s.tx.unit.toNat + 1 := by
  obtain ⟨t, hexec, hemits, hinv, hc, hgroups, hunit, hdata⟩ := h.txsend
  refine ⟨t, hexec, hemits, ⟨hinv, hc, by rw [hdata, decide_eq_true hlt.ne]⟩, hgroups, ?_⟩
  have := s.tx.groups.isLt
  rw [hunit, BitVec.toNat_add]
  exact Nat.mod_eq_of_lt (by simp; omega)

/-- The last unit ends the transmission, and the next `TXSEND` is a no-op (R147, R233). -/
theorem Sending.txsend_of_last (hlast : s.tx.unit.toNat = s.tx.groups.toNat) :
    ∃ t, exec .txsend s = .next t ∧ Emits s t ∧ t.tx.hasData = false ∧ exec .txsend t = .next (t.answered 0) := by
  obtain ⟨t, hexec, hemits, -, hc, -, -, hdata⟩ := h.txsend
  have hidle : t.tx.hasData = false := by rw [hdata, decide_eq_false (not_not_intro hlast)]
  exact ⟨t, hexec, hemits, hidle, exec_txsend_of_idle hc hidle⟩

end

/-! ### The rest of the transmission -/

theorem execTimes_succ {i : Instr} {s t : State} (h : exec i s = .next t) (n : Nat) :
    execTimes i (n + 1) s = execTimes i n t := by
  rw [execTimes, h]

/-- Induction on the units that follow the present one. -/
theorem Sending.rest {k : Nat} {s : State} (h : Sending s) (hk : s.tx.groups.toNat = s.tx.unit.toNat + k) :
    (∀ n, n < k + 1 →
      ∃ t u, execTimes .txsend n s = some t ∧ t.tx.hasData = true ∧ exec .txsend t = .next u ∧ Emits t u) ∧
    ∃ t, execTimes .txsend (k + 1) s = some t ∧ t.tx.hasData = false ∧ exec .txsend t = .next (t.answered 0) := by
  induction k generalizing s with
  | zero =>
    obtain ⟨t, hexec, hemits, hidle, hnext⟩ := h.txsend_of_last hk.symm
    refine ⟨fun n hn => ?_, t, execTimes_succ hexec 0, hidle, hnext⟩
    obtain rfl : n = 0 := by omega
    exact ⟨s, t, rfl, h.hasData, hexec, hemits⟩
  | succ k ih =>
    obtain ⟨t, hexec, hemits, ht, hgroups, hunit⟩ := h.txsend_of_lt (by omega)
    obtain ⟨hmore, hend⟩ := ih ht (by rw [hgroups]; omega)
    refine ⟨fun n hn => ?_, by rw [execTimes_succ hexec]; exact hend⟩
    cases n with
    | zero => exact ⟨s, t, rfl, h.hasData, hexec, hemits⟩
    | succ n => rw [execTimes_succ hexec]; exact hmore n (Nat.lt_of_succ_lt_succ hn)

/-- Settles O35: `txGroups - txUnit` units follow the present one (`Sending.rest`). -/
theorem transmissionTakesExactlyItsUnits : Obligations.TransmissionTakesExactlyItsUnits := by
  unfold Obligations.TransmissionTakesExactlyItsUnits
  intro s hinv hc hd
  have h : Sending s := ⟨hinv, hc, hd⟩
  obtain ⟨k, hk⟩ := Nat.exists_eq_add_of_le h.unit_le
  rw [show 1 + s.tx.groups.toNat - s.tx.unit.toNat = k + 1 by omega]
  exact h.rest hk

end Sys2Proof.Machine
end

section
/-! PROOFS of the family `43_transmit.md`, part 3: the turns counted by `Machine/Sine.lean` are those of the real angle. With `θ`
the angle of the threshold `m / M`, the pair `(x, y * M * cos θ)` of a `Turn` points in the direction of the angle the turn stands
for, and `turns` is the number of whole turns that angle has passed. -/

namespace Sys2Proof.Machine

open Real

/-! ### Signs within one turn -/

theorem sin_pos_or_iff_lt_pi {ψ : ℝ} (h0 : 0 ≤ ψ) (h2 : ψ < 2 * π) :
    (0 < sin ψ ∨ sin ψ = 0 ∧ 0 < cos ψ) ↔ ψ < π := by
  rcases h0.eq_or_lt with rfl | hpos
  · simp [pi_pos]
  rcases lt_trichotomy ψ π with hlt | rfl | hgt
  · exact iff_of_true (.inl (sin_pos_of_pos_of_lt_pi hpos hlt)) hlt
  · simp
  · have hneg : sin ψ < 0 := by
      rw [← sin_sub_two_pi]
      exact sin_neg_of_neg_of_neg_pi_lt (by linarith) (by linarith)
    exact iff_of_false (by rintro (h | ⟨h, -⟩) <;> linarith) hgt.le.not_gt

theorem sin_zero_cos_pos_iff {ψ : ℝ} (h0 : 0 ≤ ψ) (h2 : ψ < 2 * π) : (sin ψ = 0 ∧ 0 < cos ψ) ↔ ψ = 0 := by
  refine ⟨fun ⟨hs, hc⟩ => (cos_eq_one_iff_of_lt_of_lt (by linarith [pi_pos]) h2).mp ?_, by rintro rfl; simp⟩
  rcases sin_eq_zero_iff_cos_eq.mp hs with h | h
  · exact h
  · linarith

/-! ### The direction of a turn -/

/-- `θ` is the first-quadrant angle with `sin θ = m / M`. -/
structure Threshold (m : ℤ) (θ : ℝ) : Prop where
  sin_eq : 65534 * sin θ = m
  pos : 0 < θ
  lt : θ < π / 2

/-- The complex number of `t` points in the direction `φ`, the root `sqrt(M^2 - m^2)` being `M cos θ`. -/
def Turn.Points (t : Turn) (θ φ : ℝ) : Prop :=
  ∃ r : ℝ, 0 < r ∧ t.x = r * cos φ ∧ t.y * (65534 * cos θ) = r * sin φ

theorem Turn.Points.sub_turns {t : Turn} {θ φ : ℝ} (h : t.Points θ φ) (n : ℕ) : t.Points θ (φ - n * (2 * π)) := by
  rwa [Turn.Points, cos_sub_nat_mul_two_pi, sin_sub_nat_mul_two_pi]

section
variable {m : ℤ} {θ φ ψ : ℝ} {t : Turn} (hm : Threshold m θ)
include hm

theorem Threshold.cos_pos : 0 < cos θ := cos_pos_of_mem_Ioo ⟨by linarith [hm.pos, pi_pos], hm.lt⟩

theorem Threshold.root_sq : ((sineDen * sineDen - m * m : ℤ) : ℝ) = (65534 * cos θ) ^ 2 := by
  have hsq := sin_sq_add_cos_sq θ
  push_cast [sineDen, ← hm.sin_eq]
  linear_combination 65534 ^ 2 * hsq.symm

/-- The signs of the two parts are those of the direction. -/
theorem Turn.Points.signs (h : t.Points θ φ) :
    (0 < t.y ↔ 0 < sin φ) ∧ (t.y = 0 ↔ sin φ = 0) ∧ (0 < t.x ↔ 0 < cos φ) := by
  obtain ⟨r, hr, hx, hy⟩ := h
  have hroot : 0 < 65534 * cos θ := by linarith [hm.cos_pos]
  refine ⟨?_, ?_, ?_⟩
  · rw [← mul_pos_iff_of_pos_left hr, ← hy, mul_pos_iff_of_pos_right hroot, Int.cast_pos]
  · rw [← mul_eq_zero_iff_left hr.ne', ← hy, mul_eq_zero_iff_right hroot.ne', Int.cast_eq_zero]
  · rw [← mul_pos_iff_of_pos_left hr, ← hx, Int.cast_pos]

theorem Turn.Points.upper_iff (h : t.Points θ ψ) (h0 : 0 ≤ ψ) (h2 : ψ < 2 * π) : t.upper = true ↔ ψ < π := by
  obtain ⟨hypos, hyzero, hxpos⟩ := h.signs hm
  rw [← sin_pos_or_iff_lt_pi h0 h2, ← hypos, ← hyzero, ← hxpos]
  simp [Turn.upper]

theorem Turn.Points.double (h : t.Points θ φ) : (t.double m).Points θ (2 * φ) := by
  obtain ⟨r, hr, hx, hy⟩ := h
  have hroot := hm.root_sq
  push_cast at hroot
  refine ⟨r ^ 2, by positivity, ?_, ?_⟩
  · push_cast [Turn.double]
    rw [cos_two_mul', hroot, hx]
    linear_combination (-(t.y * (65534 * cos θ)) - r * sin φ) * hy
  · push_cast [Turn.double]
    rw [sin_two_mul]
    linear_combination 2 * t.y * (65534 * cos θ) * hx + 2 * r * cos φ * hy

/-- The base is `M^2` times the unit number in the direction `2θ`. -/
theorem Turn.Points.addBase (h : t.Points θ φ) : (t.addBase m).Points θ (φ + 2 * θ) := by
  obtain ⟨r, hr, hx, hy⟩ := h
  have hroot := hm.root_sq
  have hs := hm.sin_eq
  have hbase : ((sineDen * sineDen - 2 * (m * m) : ℤ) : ℝ) = 65534 ^ 2 * cos (2 * θ) := by
    rw [cos_two_mul, cos_sq']
    push_cast [sineDen, ← hs]
    ring
  push_cast at hroot hbase
  refine ⟨65534 ^ 2 * r, by positivity, ?_, ?_⟩
  · push_cast [Turn.addBase]
    rw [hbase, hroot, cos_add, sin_two_mul, hx, ← hs]
    linear_combination -2 * 65534 ^ 2 * sin θ * cos θ * hy
  · push_cast [Turn.addBase]
    rw [hbase, sin_add, sin_two_mul, hx, ← hs]
    linear_combination 65534 ^ 2 * cos (2 * θ) * hy

end

/-! ### The count of whole turns -/

/-- `t` stands for the angle `φ`: its direction, and the whole turns passed. -/
structure Turn.Measures (t : Turn) (θ φ : ℝ) : Prop where
  points : t.Points θ φ
  turns_le : t.turns * (2 * π) ≤ φ
  lt_turns : φ < t.turns * (2 * π) + 2 * π

theorem Turn.double_turns (m : ℤ) (t : Turn) :
    (t.double m).turns = 2 * t.turns + if t.upper then 0 else 1 := rfl

theorem Turn.addBase_turns (m : ℤ) (t : Turn) :
    (t.addBase m).turns = t.turns + if !t.upper && (t.addBase m).upper then 1 else 0 := rfl

theorem Turn.measures_zero (θ : ℝ) : Turn.Measures { x := 1, y := 0, turns := 0 } θ 0 :=
  ⟨⟨1, one_pos, by simp, by simp⟩, by simp, by simp [pi_pos]⟩

theorem Turn.Measures.le_turns_iff {t : Turn} {θ φ : ℝ} (h : t.Measures θ φ) {a : ℕ} :
    a ≤ t.turns ↔ a * (2 * π) ≤ φ := by
  constructor
  · intro ha
    exact (mul_le_mul_of_nonneg_right (Nat.cast_le.mpr ha) two_pi_pos.le).trans h.turns_le
  · intro ha
    have hlt : (a : ℝ) * (2 * π) < (t.turns + 1 : ℕ) * (2 * π) := by push_cast; linarith [h.lt_turns]
    exact Nat.lt_succ_iff.mp (Nat.cast_lt.mp (lt_of_mul_lt_mul_right hlt two_pi_pos.le))

section
variable {m : ℤ} {θ φ : ℝ} {t : Turn} (hm : Threshold m θ) (h : t.Measures θ φ)
include hm h

theorem Turn.Measures.upper_iff : t.upper = true ↔ φ - t.turns * (2 * π) < π :=
  (h.points.sub_turns t.turns).upper_iff hm (by linarith [h.turns_le]) (by linarith [h.lt_turns])

/-- A real positive number stands for whole turns exactly. -/
theorem Turn.Measures.aligned_iff : (t.y = 0 ∧ 0 < t.x) ↔ φ = t.turns * (2 * π) := by
  obtain ⟨-, hyzero, hxpos⟩ := (h.points.sub_turns t.turns).signs hm
  rw [hyzero, hxpos, sin_zero_cos_pos_iff (by linarith [h.turns_le]) (by linarith [h.lt_turns]), sub_eq_zero]

/-- Twice the rest passes a turn exactly when the rest is half a turn or more. -/
theorem Turn.Measures.double : (t.double m).Measures θ (2 * φ) := by
  have hupper := h.upper_iff hm
  have hle := h.turns_le
  have hlt := h.lt_turns
  cases hu : t.upper with
  | true =>
    have hψ := hupper.mp hu
    constructor
    · exact h.points.double hm
    all_goals simp only [Turn.double_turns, hu, if_true]; push_cast; linarith
  | false =>
    have hψ := not_lt.mp (mt hupper.mpr (by simp [hu]))
    constructor
    · exact h.points.double hm
    all_goals simp only [Turn.double_turns, hu, Bool.false_eq_true, if_false]; push_cast; linarith

/-- The rest plus `2θ`, less than half a turn, passes a turn exactly when it leaves the lower half turn for the upper one. -/
theorem Turn.Measures.addBase : (t.addBase m).Measures θ (φ + 2 * θ) := by
  have hupper := h.upper_iff hm
  have hle := h.turns_le
  have hlt := h.lt_turns
  have hpoints := h.points.addBase hm
  have hθ := hm.pos
  have hθ' := hm.lt
  rcases lt_or_ge (φ + 2 * θ) (t.turns * (2 * π) + 2 * π) with hstay | hpass
  · have hu := (hpoints.sub_turns t.turns).upper_iff hm (by linarith) (by linarith)
    have hcount : (t.addBase m).turns = t.turns := by
      rw [Turn.addBase_turns, if_neg, add_zero]
      simp only [Bool.and_eq_true, Bool.not_eq_true', ← Bool.not_eq_true, hupper, hu]
      rintro ⟨hψ, hψ'⟩
      linarith
    exact ⟨hpoints, by rw [hcount]; linarith, by rw [hcount]; exact hstay⟩
  · have hu := (hpoints.sub_turns (t.turns + 1)).upper_iff hm (by push_cast; linarith) (by push_cast; linarith)
    have hcount : (t.addBase m).turns = t.turns + 1 := by
      rw [Turn.addBase_turns, if_pos]
      simp only [Bool.and_eq_true, Bool.not_eq_true', ← Bool.not_eq_true, hupper, hu]
      push_cast
      exact ⟨by linarith, by linarith⟩
    constructor
    · exact hpoints
    all_goals rw [hcount]; push_cast; linarith

end

section
variable {m : ℤ} {θ : ℝ} (hm : Threshold m θ)
include hm

/-- `turnOf` reads the bits of `q` from the top: double, and add the base for a 1. -/
theorem Threshold.measures_turnOf {fuel q : ℕ} (hq : q < 2 ^ fuel) : (turnOf m fuel q).Measures θ (q * (2 * θ)) := by
  induction fuel generalizing q with
  | zero =>
    obtain rfl : q = 0 := by simpa using hq
    simpa [turnOf] using Turn.measures_zero θ
  | succ fuel ih =>
    have hd := (ih (q := q / 2) (by omega)).double hm
    have hq2 : (q : ℝ) = 2 * (q / 2 : ℕ) + (q % 2 : ℕ) := by exact_mod_cast (Nat.div_add_mod q 2).symm
    simp only [turnOf]
    split
    · rename_i hbit
      have := hd.addBase hm
      rw [hbit] at hq2
      convert this using 1
      rw [hq2]; push_cast; ring
    · rename_i hbit
      rw [Nat.mod_two_ne_one.mp hbit] at hq2
      convert hd using 1
      rw [hq2]; push_cast; ring

theorem Threshold.measures_turnPow (q : ℕ) : (turnPow m q).Measures θ (q * (2 * θ)) :=
  hm.measures_turnOf Nat.lt_log2_self

end

end Sys2Proof.Machine
end

section
/-! PROOFS of the family `43_transmit.md`, part 4: `SINE` is the nearest integer, a tie going to the even one (O31). The counted
turns compare the angle with each half-integer threshold, and the search finds the first threshold not below the sine. -/

namespace Sys2Proof.Machine

open Real

/-! ### Comparing with a threshold -/

theorem exists_threshold {n : ℕ} (hn : n < 32767) : ∃ θ, Threshold (2 * n + 1) θ := by
  have hn' : (n : ℝ) + 1 ≤ 32767 := by exact_mod_cast hn
  refine ⟨arcsin ((2 * n + 1) / 65534), ?_, arcsin_pos.mpr (by positivity), arcsin_lt_pi_div_two.mpr ?_⟩
  · rw [sin_arcsin (by linarith [show 0 ≤ (2 * (n : ℝ) + 1) / 65534 by positivity])
      ((div_le_one (by norm_num)).mpr (by linarith))]
    push_cast
    ring
  · rw [div_lt_one (by norm_num)]
    linarith

section
variable {a q n : ℕ} {θ : ℝ} (hq : 0 < q) (hθ : Threshold (2 * n + 1) θ)
include hq hθ

theorem Threshold.sineAtMost_iff_angle : sineAtMost a q n = true ↔ π * a / q ≤ θ := by
  rw [sineAtMost, decide_eq_true_eq, (hθ.measures_turnPow q).le_turns_iff, div_le_iff₀ (by exact_mod_cast hq)]
  constructor <;> intro h <;> linarith

theorem Threshold.sineTie_iff_angle : sineTie a q n = true ↔ π * a / q = θ := by
  have h := hθ.measures_turnPow q
  simp only [sineTie, Bool.and_eq_true, decide_eq_true_eq, and_assoc, h.aligned_iff hθ]
  rw [div_eq_iff (by exact_mod_cast hq.ne')]
  constructor
  · rintro ⟨rfl, hφ⟩
    linarith
  · intro ha
    have hφ : q * (2 * θ) = a * (2 * π) := by linarith
    have hle : (turnPow (2 * n + 1) q).turns ≤ a :=
      Nat.cast_le.mp (le_of_mul_le_mul_right (h.turns_le.trans_eq hφ) two_pi_pos)
    obtain rfl := le_antisymm hle (h.le_turns_iff.mpr hφ.ge)
    exact ⟨rfl, hφ⟩

end

section
variable {a q n : ℕ} (hq : 0 < q) (ha : 2 * a ≤ q)
include hq ha

/-- The angle `pi a / q` lies in the first quadrant. -/
theorem angle_mem_Icc : 0 ≤ π * a / q ∧ π * a / q ≤ π / 2 := by
  have ha' : 2 * (a : ℝ) ≤ q := by exact_mod_cast ha
  refine ⟨by positivity, ?_⟩
  rw [div_le_div_iff₀ (by exact_mod_cast hq) two_pos]
  nlinarith [pi_pos]

theorem sineAtMost_iff (hn : n < 32767) : sineAtMost a q n = true ↔ 32767 * sin (π * a / q) ≤ n + 1 / 2 := by
  obtain ⟨θ, hθ⟩ := exists_threshold hn
  obtain ⟨h0, h1⟩ := angle_mem_Icc hq ha
  have hs := hθ.sin_eq
  push_cast at hs
  rw [hθ.sineAtMost_iff_angle hq,
    ← strictMonoOn_sin.le_iff_le ⟨by linarith, h1⟩ ⟨by linarith [hθ.pos], hθ.lt.le⟩]
  constructor <;> intro h <;> linarith

theorem sineTie_iff (hn : n < 32767) : sineTie a q n = true ↔ 32767 * sin (π * a / q) = n + 1 / 2 := by
  obtain ⟨θ, hθ⟩ := exists_threshold hn
  obtain ⟨h0, h1⟩ := angle_mem_Icc hq ha
  have hs := hθ.sin_eq
  push_cast at hs
  rw [hθ.sineTie_iff_angle hq,
    ← strictMonoOn_sin.injOn.eq_iff ⟨by linarith, h1⟩ ⟨by linarith [hθ.pos], hθ.lt.le⟩]
  constructor <;> intro h <;> linarith

end

/-! ### The search -/

/-- The search ends in range, at a value that bounds the sine unless it is `hi`, and the value before it does not. -/
theorem sineSearch_spec {a q fuel lo hi : ℕ} (hle : lo ≤ hi) (hfuel : hi < lo + 2 ^ fuel) :
    (lo ≤ sineSearch a q fuel lo hi ∧ sineSearch a q fuel lo hi ≤ hi) ∧
    (sineSearch a q fuel lo hi < hi → sineAtMost a q (sineSearch a q fuel lo hi) = true) ∧
    (lo < sineSearch a q fuel lo hi → sineAtMost a q (sineSearch a q fuel lo hi - 1) = false) := by
  induction fuel generalizing lo hi with
  | zero =>
    obtain rfl : lo = hi := by omega
    exact ⟨⟨le_refl _, le_refl _⟩, fun h => absurd h (lt_irrefl _), fun h => absurd h (lt_irrefl _)⟩
  | succ fuel ih =>
    rw [sineSearch]
    split
    · obtain rfl : lo = hi := by omega
      exact ⟨⟨le_refl _, le_refl _⟩, fun h => absurd h (lt_irrefl _), fun h => absurd h (lt_irrefl _)⟩
    · dsimp only
      split
      · rename_i hmid
        obtain ⟨⟨h1, h2⟩, hat, hbefore⟩ := ih (lo := lo) (hi := (lo + hi) / 2) (by omega) (by omega)
        refine ⟨⟨h1, by omega⟩, fun _ => ?_, hbefore⟩
        rcases h2.lt_or_eq with hlt | heq
        · exact hat hlt
        · rw [heq]; exact hmid
      · rename_i hmid
        obtain ⟨⟨h1, h2⟩, hat, hbefore⟩ := ih (lo := (lo + hi) / 2 + 1) (hi := hi) (by omega) (by omega)
        refine ⟨⟨by omega, h2⟩, hat, fun _ => ?_⟩
        rcases h1.lt_or_eq with hlt | heq
        · exact hbefore hlt
        · rw [← heq, Nat.add_sub_cancel]; exact Bool.eq_false_iff.mpr hmid

/-! ### The nearest integer -/

/-- `n` is the integer nearest to `x`, a tie going to the even one (R150). -/
def NearestEven (x : ℝ) (n : ℤ) : Prop := |x - n| ≤ 1 / 2 ∧ (|x - n| = 1 / 2 → Even n)

theorem NearestEven.neg {x : ℝ} {n : ℤ} (h : NearestEven x n) : NearestEven (-x) (-n) := by
  have habs : |-x - ((-n : ℤ) : ℝ)| = |x - n| := by push_cast; rw [← abs_neg]; ring_nf
  rw [NearestEven, habs, even_neg]
  exact h

/-- On the first quadrant: the search leaves the half-open interval around `n`, whose one tie is tested for. -/
theorem nearestEven_sineFirstQuadrant {a q : ℕ} (hq : 0 < q) (ha : 2 * a ≤ q) :
    NearestEven (32767 * sin (π * a / q)) (sineFirstQuadrant a q) := by
  obtain ⟨⟨-, hmax⟩, hat, hbefore⟩ := sineSearch_spec (a := a) (q := q) (fuel := 15) (Nat.zero_le 32767) (by decide)
  obtain ⟨h0, h1⟩ := angle_mem_Icc hq ha
  have hsin0 : 0 ≤ sin (π * a / q) := sin_nonneg_of_nonneg_of_le_pi h0 (by linarith [pi_pos])
  have hsin1 := sin_le_one (π * a / q)
  simp only [sineFirstQuadrant]
  generalize sineSearch a q 15 0 32767 = n at hmax hat hbefore ⊢
  have hlower : (n : ℝ) - 1 / 2 < 32767 * sin (π * a / q) := by
    rcases n.eq_zero_or_pos with rfl | hn
    · push_cast; linarith
    · have := mt (sineAtMost_iff hq ha (n := n - 1) (by omega)).mpr (by simp [hbefore hn])
      push_cast [Nat.cast_sub hn] at this
      linarith
  split
  · rename_i htie
    simp only [Bool.and_eq_true, decide_eq_true_eq] at htie
    rw [(sineTie_iff hq ha htie.1).mp htie.2]
    refine ⟨?_, fun _ => ?_⟩
    · rcases Nat.mod_two_eq_zero_or_one n with h | h <;> rw [h] <;> push_cast <;> norm_num [abs_of_neg]
    · exact_mod_cast Nat.even_iff.mpr (by omega)
  · rename_i htie
    have hupper : 32767 * sin (π * a / q) < n + 1 / 2 := by
      rcases hmax.lt_or_eq with hn | rfl
      · refine lt_of_le_of_ne ((sineAtMost_iff hq ha hn).mp (hat hn)) fun heq => htie ?_
        simp [hn, (sineTie_iff hq ha hn).mpr heq]
      · push_cast; linarith
    have habs : |32767 * sin (π * a / q) - (n : ℤ)| < 1 / 2 := by
      rw [abs_lt]
      push_cast
      exact ⟨by linarith, by linarith⟩
    exact ⟨habs.le, fun h => absurd h habs.ne⟩

/-! ### The whole turn -/

theorem nearestEven_sineHalf {p q : ℕ} (hq : 0 < q) (hp : 2 * p ≤ q) :
    NearestEven (32767 * sin (2 * π * p / q)) (sineHalf p q) := by
  have hq' : (q : ℝ) ≠ 0 := by exact_mod_cast hq.ne'
  have h := nearestEven_sineFirstQuadrant hq (a := min (2 * p) (q - 2 * p)) (by omega)
  rw [sineHalf]
  convert h using 2
  rcases min_choice (2 * p) (q - 2 * p) with hmin | hmin <;> rw [hmin]
  · push_cast; congr 1; ring
  · rw [← sin_pi_sub, Nat.cast_sub hp]
    congr 1
    push_cast
    field_simp

theorem nearestEven_sine {p q : ℕ} (hpq : p < q) : NearestEven (32767 * sin (2 * π * p / q)) (sine p q) := by
  have hq : 0 < q := (Nat.zero_le p).trans_lt hpq
  have hq' : (q : ℝ) ≠ 0 := by exact_mod_cast hq.ne'
  rw [sine]
  split
  · rename_i hp
    exact nearestEven_sineHalf hq hp
  · convert (nearestEven_sineHalf hq (p := q - p) (by omega)).neg using 1
    rw [← mul_neg, ← sin_two_pi_sub, Nat.cast_sub hpq.le]
    congr 2
    field_simp
    ring

/-- Settles O31, by `nearestEven_sine`: the two halves of the turn, each folded to the first quadrant. -/
theorem sineIsTheNearestInteger : Obligations.SineIsTheNearestInteger := by
  unfold Obligations.SineIsTheNearestInteger
  exact fun _ _ => nearestEven_sine

end Sys2Proof.Machine
end

section
/-! PROOFS of the family `43_transmit.md`, part 5: the facts R150 lists of `SINE` (O32). The nearest integer is unique, so each
value follows from the real sine; the only ties are those of Niven's theorem. -/

namespace Sys2Proof.Machine

open Real

/-! ### The nearest integer is unique -/

theorem NearestEven.unique {x : ℝ} {n k : ℤ} (hn : NearestEven x n) (hk : NearestEven x k) : n = k := by
  obtain ⟨hn1, hn2⟩ := hn
  obtain ⟨hk1, hk2⟩ := hk
  wlog hnk : n ≤ k generalizing n k
  · exact (this hk1 hk2 hn1 hn2 (le_of_not_ge hnk)).symm
  obtain ⟨-, hnr⟩ := abs_le.mp hn1
  obtain ⟨hkl, -⟩ := abs_le.mp hk1
  have hle : k ≤ n + 1 := by exact_mod_cast (by linarith : (k : ℝ) ≤ n + 1)
  rcases hnk.eq_or_lt with heq | hlt
  · exact heq
  · -- neighbours: `x` is half-way between them, so both would be even
    obtain rfl : k = n + 1 := by omega
    push_cast at hkl hk2
    have hx : x - n = 1 / 2 := by linarith
    have hn3 := hn2 (by rw [hx]; norm_num)
    have hk3 := hk2 (by rw [show x - (n + 1) = -(1 / 2) by linarith]; norm_num)
    rw [Int.even_iff] at hn3 hk3
    omega

theorem nearestEven_intCast (n : ℤ) : NearestEven n n := ⟨by norm_num, by norm_num⟩

theorem NearestEven.abs_le {x : ℝ} {n : ℤ} {b : ℕ} (h : NearestEven x n) (hx : |x| ≤ b) : |n| ≤ b := by
  have hlt : (|n| : ℝ) < b + 1 := by
    have := abs_sub_abs_le_abs_sub (n : ℝ) x
    rw [abs_sub_comm] at this
    linarith [h.1]
  exact Int.lt_add_one_iff.mp (by exact_mod_cast hlt)

/-! ### Values from the real sine -/

theorem abs_sine_le {p q : ℕ} (hpq : p < q) : |sine p q| ≤ 32767 := by
  refine (nearestEven_sine hpq).abs_le (b := 32767) ?_
  rw [abs_mul]
  have := abs_sin_le_one (2 * π * p / q)
  norm_num
  linarith

theorem sine_eq_of_nearestEven {p q : ℕ} {n : ℤ} {s : ℝ} (hpq : p < q) (hs : sin (2 * π * p / q) = s)
    (h : NearestEven (32767 * s) n) : sine p q = n :=
  (nearestEven_sine hpq).unique (hs ▸ h)

/-- `SINE` at `k / d` of a turn, whatever the denominator the fraction is written with. -/
theorem sine_of_fraction {k d q : ℕ} {n : ℤ} {s : ℝ} (hq : 0 < q) (hkd : k < d) (hs : sin (2 * π * k / d) = s)
    (h : NearestEven (32767 * s) n) : sine (k * q) (d * q) = n := by
  have hq' : (q : ℝ) ≠ 0 := by exact_mod_cast hq.ne'
  refine sine_eq_of_nearestEven (Nat.mul_lt_mul_of_pos_right hkd hq) ?_ h
  rw [← hs]
  push_cast
  rw [← mul_assoc, mul_div_mul_right _ _ hq']

theorem sine_scaled {p q n : ℕ} (hpq : p < q) (hn : 0 < n) : sine (n * p) (n * q) = sine p q := by
  rw [Nat.mul_comm n p, Nat.mul_comm n q]
  exact sine_of_fraction hn hpq rfl (nearestEven_sine hpq)

theorem sine_sub {p q : ℕ} (hp : 0 < p) (hpq : p < q) : sine (q - p) q = -sine p q := by
  have hq' : (q : ℝ) ≠ 0 := by exact_mod_cast (hp.trans hpq).ne'
  refine sine_eq_of_nearestEven (Nat.sub_lt (hp.trans hpq) hp) ?_ ?_ (s := -sin (2 * π * p / q))
  · rw [← sin_two_pi_sub, Nat.cast_sub hpq.le]
    congr 1
    field_simp
  · rw [mul_neg]
    exact (nearestEven_sine hpq).neg

/-! ### Quarters and twelfths of a turn -/

theorem nearestEven_half : NearestEven (32767 * (1 / 2)) 16384 := by
  constructor <;> norm_num [abs_of_neg]

theorem nearestEven_neg_half : NearestEven (32767 * -(1 / 2)) (-16384) := by
  rw [mul_neg]
  exact nearestEven_half.neg

theorem sine_quarters {q : ℕ} (hq : 0 < q) :
    sine 0 q = 0 ∧ sine q (2 * q) = 0 ∧ sine q (4 * q) = 32767 ∧ sine (3 * q) (4 * q) = -32767 := by
  have h1 (d : ℕ) : sine q (d * q) = sine (1 * q) (d * q) := by rw [Nat.one_mul]
  rw [h1, h1]
  refine ⟨?_, ?_, ?_, ?_⟩
  · exact sine_eq_of_nearestEven hq (s := 0) (by simp) (by simpa using nearestEven_intCast 0)
  · refine sine_of_fraction hq (by decide) (s := 0) ?_ (by simpa using nearestEven_intCast 0)
    rw [← sin_pi]; congr 1; push_cast; ring
  · refine sine_of_fraction hq (by decide) (s := 1) ?_ (by simpa using nearestEven_intCast 32767)
    rw [← sin_pi_div_two]; congr 1; push_cast; ring
  · refine sine_of_fraction hq (by decide) (s := -1) ?_ (by simpa using nearestEven_intCast (-32767))
    rw [← sin_pi_div_two, ← sin_add_pi]; congr 1; push_cast; ring

theorem sine_twelfths {q : ℕ} (hq : 0 < q) :
    sine q (12 * q) = 16384 ∧ sine (5 * q) (12 * q) = 16384 ∧ sine (7 * q) (12 * q) = -16384 ∧
      sine (11 * q) (12 * q) = -16384 := by
  rw [show sine q (12 * q) = sine (1 * q) (12 * q) by rw [Nat.one_mul]]
  refine ⟨sine_of_fraction hq (by decide) ?_ nearestEven_half, sine_of_fraction hq (by decide) ?_ nearestEven_half,
    sine_of_fraction hq (by decide) ?_ nearestEven_neg_half, sine_of_fraction hq (by decide) ?_ nearestEven_neg_half⟩
  · rw [← sin_pi_div_six]; congr 1; push_cast; ring
  · rw [← sin_pi_div_six, ← sin_pi_sub]; congr 1; push_cast; ring
  · rw [← sin_pi_div_six, ← sin_add_pi]; congr 1; push_cast; ring
  · rw [← sin_pi_div_six, ← sin_two_pi_sub]; congr 1; push_cast; ring

/-! ### The only ties -/

/-- A tie makes the sine a rational number with an even denominator, and Niven's theorem leaves only `1/2` and `-1/2`. -/
theorem sin_of_tie {p q : ℕ} {n : ℤ} (h : |32767 * sin (2 * π * p / q) - n| = 1 / 2) :
    sin (2 * π * p / q) = 1 / 2 ∨ sin (2 * π * p / q) = -(1 / 2) := by
  obtain ⟨k, hk⟩ : ∃ k : ℤ, 65534 * sin (2 * π * p / q) = (2 * k + 1 : ℤ) := by
    rcases (abs_eq (by norm_num)).mp h with h | h
    · exact ⟨n, by push_cast; linarith⟩
    · exact ⟨n - 1, by push_cast; linarith⟩
  have hcases := niven_sin (θ := 2 * π * p / q) ⟨2 * p / q, by push_cast; ring⟩
    ⟨(2 * k + 1 : ℤ) / 65534, by rw [Rat.cast_div, Rat.cast_intCast, ← hk]; norm_num⟩
  have hodd (j : ℤ) : sin (2 * π * p / q) ≠ j := fun hj => by
    rw [hj] at hk
    have : 65534 * j = 2 * k + 1 := by exact_mod_cast hk
    omega
  rcases hcases with hs | hs | hs | hs | hs
  · exact absurd hs (by simpa using hodd (-1))
  · right; rw [hs]; norm_num
  · exact absurd hs (by simpa using hodd 0)
  · left; exact hs
  · exact absurd hs (by simpa using hodd 1)

/-- A sine equal to that of `c` twelfths of a turn is at a number of twelfths, `c` or the supplement `6 - c`. -/
theorem twelfths_of_sin_eq {p q : ℕ} {c : ℤ} (hpq : p < q) (h : sin (2 * π * p / q) = sin (c * π / 6)) :
    ∃ j : ℤ, (0 ≤ j ∧ j < 12) ∧ 12 * (p : ℤ) = j * q ∧ (j % 12 = c % 12 ∨ j % 12 = (6 - c) % 12) := by
  have hq : 0 < (q : ℤ) := by omega
  have hq' : (q : ℝ) ≠ 0 := by exact_mod_cast hq.ne'
  have hrange {j : ℤ} (hj : 12 * (p : ℤ) = j * q) : 0 ≤ j ∧ j < 12 :=
    ⟨nonneg_of_mul_nonneg_left (by omega) hq, lt_of_mul_lt_mul_right (by omega : j * q < 12 * q) hq.le⟩
  obtain ⟨k, hk | hk⟩ := sin_eq_sin_iff.mp h
  · have hj : 12 * (p : ℤ) = (c - 12 * k) * q := by
      field_simp at hk
      have : (12 : ℝ) * p = (c - 12 * k) * q := by linarith
      exact_mod_cast this
    exact ⟨_, hrange hj, hj, .inl (by omega)⟩
  · have hj : 12 * (p : ℤ) = (12 * k + 6 - c) * q := by
      field_simp at hk
      have : (12 : ℝ) * p = (12 * k + 6 - c) * q := by linarith
      exact_mod_cast this
    exact ⟨_, hrange hj, hj, .inr (by omega)⟩

theorem twelfths_of_tie {p q : ℕ} {n : ℤ} (hpq : p < q) (h : |32767 * sin (2 * π * p / q) - n| = 1 / 2) :
    12 * p = q ∨ 12 * p = 5 * q ∨ 12 * p = 7 * q ∨ 12 * p = 11 * q := by
  have hsix : sin ((1 : ℤ) * π / 6) = 1 / 2 := by rw [← sin_pi_div_six]; push_cast; rw [one_mul]
  rcases sin_of_tie h with hs | hs
  · obtain ⟨j, ⟨hj0, hj12⟩, hj, hc⟩ := twelfths_of_sin_eq hpq (hs.trans hsix.symm)
    obtain rfl | rfl : j = 1 ∨ j = 5 := by omega
    all_goals omega
  · have hneg : sin ((-1 : ℤ) * π / 6) = -(1 / 2) := by rw [← hsix, ← sin_neg]; congr 1; push_cast; ring
    obtain ⟨j, ⟨hj0, hj12⟩, hj, hc⟩ := twelfths_of_sin_eq hpq (hs.trans hneg.symm)
    obtain rfl | rfl : j = 11 ∨ j = 7 := by omega
    all_goals omega

/-- Settles O32: bound, values, symmetry and dependence on the fraction by the uniqueness of the nearest integer, the ties by
`twelfths_of_tie`; the four sample values are evaluated. -/
theorem sineListedFacts : Obligations.SineListedFacts := by
  unfold Obligations.SineListedFacts
  exact ⟨fun _ _ => abs_sine_le, fun _ => sine_quarters, fun _ _ => sine_sub, fun _ => sine_twelfths,
    fun _ _ => twelfths_of_tie, fun _ _ _ => sine_scaled, by decide, by decide, by decide, by decide⟩

end Sys2Proof.Machine
end

section
/-! PROOFS of the family `43_transmit.md`, part 6: the float view of a sample is exact (O33). -/

namespace Sys2Proof.Machine

/-! ### The fields of a binary32 word -/

/-- Sign, exponent and fraction of a word given as a number by them (R152's layout). -/
theorem f32_fields {w : Word} {s e f : ℕ} (hs : s < 2) (he : e < 256) (hf : f < 2 ^ 23)
    (hw : w.toNat = s * 2 ^ 31 + e * 2 ^ 23 + f) :
    w.getLsbD 31 = decide (s = 1) ∧ f32Exponent w = e ∧ f32Fraction w = f := by
  refine ⟨?_, ?_, ?_⟩
  · rw [← BitVec.testBit_toNat, Nat.testBit_eq_decide_div_mod_eq, hw]
    congr 1
    exact propext (by omega)
  · rw [f32Exponent, field_toNat, hw]; omega
  · rw [f32Fraction, field_toNat, hw]; omega

/-- A normal number (R152). -/
theorem f32Value_of_normal {w : Word} {s e f : ℕ} (hs : s < 2) (he : e < 256) (he0 : e ≠ 0) (hf : f < 2 ^ 23)
    (hw : w.toNat = s * 2 ^ 31 + e * 2 ^ 23 + f) :
    f32Value w = (if s = 1 then -1 else 1) * ((1 + f / 2 ^ 23) * 2 ^ ((e : ℤ) - 127)) := by
  obtain ⟨hsign, hexp, hfrac⟩ := f32_fields hs he hf hw
  rw [f32Value, hsign, hexp, hfrac, if_neg he0]
  simp only [decide_eq_true_eq]

/-! ### `I16TOF32` -/

/-- The shifted and masked parts do not overlap: the word is their sum. -/
theorem or_fields_eq_add {s e a k : ℕ} (he : e < 256) (ha : 2 ^ 23 ≤ a * 2 ^ k) (ha' : a * 2 ^ k < 2 ^ 24) :
    (s <<< 31) ||| (e <<< 23) ||| ((a <<< k) &&& 0x7FFFFF) = s * 2 ^ 31 + e * 2 ^ 23 + (a * 2 ^ k - 2 ^ 23) := by
  have hmask : (a <<< k) &&& 0x7FFFFF = a * 2 ^ k - 2 ^ 23 := by
    rw [Nat.shiftLeft_eq, show 0x7FFFFF = 2 ^ 23 - 1 from rfl, Nat.and_two_pow_sub_one_eq_mod]
    omega
  have hfrac : a * 2 ^ k - 2 ^ 23 < 2 ^ 23 := by omega
  have hlow : e <<< 23 + (a * 2 ^ k - 2 ^ 23) < 2 ^ 31 := by rw [Nat.shiftLeft_eq]; omega
  rw [hmask, Nat.or_assoc, ← Nat.shiftLeft_add_eq_or_of_lt hfrac, ← Nat.shiftLeft_add_eq_or_of_lt hlow,
    Nat.shiftLeft_eq, Nat.shiftLeft_eq, Nat.add_assoc]

section
variable {v : I16} (hv : v ≠ 0)
include hv

theorem natAbs_toInt_bounds : 0 < v.toInt.natAbs ∧ v.toInt.natAbs ≤ 2 ^ 15 := by
  have h0 : v.toInt ≠ 0 := fun h => hv (BitVec.eq_of_toInt_eq h)
  have h1 := v.toInt_lt
  have h2 := v.le_toInt
  omega

theorem msb_natAbs_le : msb v.toInt.natAbs ≤ 15 := by
  obtain ⟨hpos, hle⟩ := natAbs_toInt_bounds hv
  have hlt : msb v.toInt.natAbs < 16 := (Nat.log2_lt hpos.ne').mpr (by omega)
  omega

/-- Shifted so that its leading 1 is bit 23, `|v|` has 24 bits. -/
theorem natAbs_normalized :
    2 ^ 23 ≤ v.toInt.natAbs * 2 ^ (23 - msb v.toInt.natAbs) ∧
      v.toInt.natAbs * 2 ^ (23 - msb v.toInt.natAbs) < 2 ^ 24 := by
  have hm := msb_natAbs_le hv
  have hlo : 2 ^ msb v.toInt.natAbs ≤ v.toInt.natAbs := Nat.log2_self_le (natAbs_toInt_bounds hv).1.ne'
  have hhi : v.toInt.natAbs < 2 ^ (msb v.toInt.natAbs + 1) := Nat.lt_log2_self
  constructor
  · calc 2 ^ 23 = 2 ^ msb v.toInt.natAbs * 2 ^ (23 - msb v.toInt.natAbs) := by rw [← pow_add]; congr 1; omega
      _ ≤ _ := Nat.mul_le_mul_right _ hlo
  · calc _ < 2 ^ (msb v.toInt.natAbs + 1) * 2 ^ (23 - msb v.toInt.natAbs) := Nat.mul_lt_mul_of_pos_right hhi (by positivity)
      _ = 2 ^ 24 := by rw [← pow_add]; congr 1; omega

/-- The word of R152 as the sum of its fields. -/
theorem i16ToF32_toNat :
    (i16ToF32 v).toNat = (if v.toInt < 0 then 1 else 0) * 2 ^ 31 + (112 + msb v.toInt.natAbs) * 2 ^ 23 +
      (v.toInt.natAbs * 2 ^ (23 - msb v.toInt.natAbs) - 2 ^ 23) := by
  have hm := msb_natAbs_le hv
  obtain ⟨hlo, hhi⟩ := natAbs_normalized hv
  rw [i16ToF32, if_neg hv]
  dsimp only
  rw [or_fields_eq_add (by omega) hlo hhi, BitVec.toNat_ofNat, Nat.mod_eq_of_lt]
  split <;> omega

theorem f32Exponent_i16ToF32 : f32Exponent (i16ToF32 v) = 112 + msb v.toInt.natAbs := by
  have hm := msb_natAbs_le hv
  obtain ⟨hlo, hhi⟩ := natAbs_normalized hv
  obtain ⟨-, hexp, -⟩ := f32_fields (by split <;> decide) (by omega) (by omega) (i16ToF32_toNat hv)
  exact hexp

/-- The fraction with its hidden 1 is `|v|` shifted to 24 bits, and the exponent takes the shift back. -/
theorem f32Value_i16ToF32 : f32Value (i16ToF32 v) = (v.toInt : ℚ) / 32768 := by
  have hm := msb_natAbs_le hv
  obtain ⟨hlo, hhi⟩ := natAbs_normalized hv
  rw [f32Value_of_normal (by split <;> decide) (by omega) (by omega) (by omega) (i16ToF32_toNat hv)]
  have hfrac : 1 + ((v.toInt.natAbs * 2 ^ (23 - msb v.toInt.natAbs) - 2 ^ 23 : ℕ) : ℚ) / 2 ^ 23 =
      v.toInt.natAbs / 2 ^ msb v.toInt.natAbs := by
    rw [Nat.cast_sub hlo]
    push_cast
    rw [pow_sub₀ _ two_ne_zero (by omega)]
    field_simp
    ring
  have hscale : (2 : ℚ) ^ (((112 + msb v.toInt.natAbs : ℕ) : ℤ) - 127) = 2 ^ msb v.toInt.natAbs / 32768 := by
    rw [show ((112 + msb v.toInt.natAbs : ℕ) : ℤ) - 127 = (msb v.toInt.natAbs : ℤ) - 15 by push_cast; ring,
      zpow_sub₀ two_ne_zero, zpow_natCast]
    norm_num
  have hsign : (v.toInt : ℚ) = (if v.toInt < 0 then -1 else 1) * (v.toInt.natAbs : ℚ) := by
    rw [Nat.cast_natAbs]
    split
    · rename_i hneg; rw [abs_of_neg hneg]; push_cast; ring
    · rename_i hneg; rw [abs_of_nonneg (not_lt.mp hneg), one_mul]
  have hbit : ((if v.toInt < 0 then 1 else 0) = 1) ↔ v.toInt < 0 := by split <;> simp [*]
  rw [hfrac, hscale, hsign]
  simp only [hbit]
  field_simp

end

/-- Settles O33: a non-zero sample by the fields of its word (`i16ToF32_toNat`), and zero by evaluation. -/
theorem floatViewIsExact : Obligations.FloatViewIsExact := by
  unfold Obligations.FloatViewIsExact
  intro v
  by_cases hv : v = 0
  · subst hv
    exact ⟨by simp [i16ToF32, f32Value, f32Exponent, f32Fraction], by decide, fun h => absurd rfl h, fun _ => rfl⟩
  · have hexp := f32Exponent_i16ToF32 hv
    have hm := msb_natAbs_le hv
    rw [f32Exponent] at hexp
    exact ⟨f32Value_i16ToF32 hv, by omega, fun _ => by omega, fun h => absurd h hv⟩

end Sys2Proof.Machine
end

section
/-! PROOFS of the family `43_transmit.md`, part 7: the samples of a frame (O30), and the units as repeated frames (O29). -/

namespace Sys2Proof.Machine

open Sys2Proof.Config

/-! ### The samples of a frame (R151) -/

theorem sineTable_getD {k l : Nat} (hk : k < l) : (sineTable l).getD k 0 = sine k l := by
  simp [sineTable, hk]

/-- `W[i]` of R151: the sum of the on-set's tones at sample `i`. -/
def toneWave (l : Nat) (p : ProtoId) (onSet : List Nat) (i : Nat) : Int :=
  (onSet.map fun b => sine ((binOn p b * i) % l) l).sum

theorem toneSum_eq_toneWave {l i : Nat} (p : ProtoId) (onSet : List Nat) (hi : i < l) :
    toneSum (sineTable l) l (onSet.map (binOn p)) i = toneWave l p onSet i := by
  rw [toneSum, toneWave, List.map_map]
  congr 2
  funext b
  exact sineTable_getD (Nat.mod_lt _ (Nat.zero_lt_of_lt hi))

theorem frame_getElem? {l i : Nat} (p : ProtoId) (onSet : List Nat) (vol : Nat) (hi : i < l) :
    (frame l p onSet vol)[i]? = some (toneSample p vol (toneWave l p onSet i)) := by
  simp [frame, hi, toneSum_eq_toneWave]

/-! ### No sample is clipped (R151) -/

/-- Each of the at most `T` tones is at most full scale. -/
theorem abs_toneWave_le {l i : Nat} {p : ProtoId} {onSet : List Nat} (hi : i < l) (hnodup : onSet.Nodup)
    (hlt : ∀ b ∈ onSet, b < ampSlots p) : |toneWave l p onSet i| ≤ ampSlots p * 32767 := by
  have hcard : onSet.length ≤ ampSlots p := by
    have hsub : onSet ⊆ List.range (ampSlots p) := fun b hb => List.mem_range.mpr (hlt b hb)
    exact (hnodup.subperm hsub).length_le.trans_eq List.length_range
  have htones := List.sum_le_card_nsmul ((onSet.map fun b => sine ((binOn p b * i) % l) l).map abs) 32767 (by
    simp only [List.mem_map]
    rintro _ ⟨_, ⟨b, -, rfl⟩, rfl⟩
    exact abs_sine_le (Nat.mod_lt _ (Nat.zero_lt_of_lt hi)))
  calc |toneWave l p onSet i|
    _ ≤ ((onSet.map fun b => sine ((binOn p b * i) % l) l).map abs).sum :=
        List.le_sum_of_subadditive _ abs_zero.le abs_add_le _
    _ ≤ onSet.length * 32767 := by simpa using htones
    _ ≤ ampSlots p * 32767 := by gcongr

/-- The scale `vol / (100 T)` brings the sum of `T` full-scale tones back to full scale. -/
theorem natAbs_tdiv_le {vol t : Nat} {w : Int} (hvol : vol ≤ 100) (hw : |w| ≤ t * 32767) :
    (Int.tdiv (vol * w) (100 * t : Nat)).natAbs ≤ 32767 := by
  have hw' : w.natAbs ≤ t * 32767 := by rw [Int.abs_eq_natAbs] at hw; omega
  rw [Int.natAbs_tdiv, Int.natAbs_mul, Int.natAbs_natCast, Int.natAbs_natCast]
  refine Nat.div_le_of_le_mul ?_
  calc vol * w.natAbs ≤ 100 * (t * 32767) := Nat.mul_le_mul hvol hw'
    _ = 100 * t * 32767 := (Nat.mul_assoc ..).symm

theorem toInt_toneSample {p : ProtoId} {vol : Nat} {w : Int}
    (h : (Int.tdiv (vol * w) (100 * ampSlots p : Nat)).natAbs ≤ 32767) :
    (toneSample p vol w).toInt = Int.tdiv (vol * w) (100 * ampSlots p : Nat) := by
  rw [toneSample, tdiv]
  exact BitVec.toInt_ofInt_eq_self (by decide) (by omega) (by omega)

/-- Settles O30: the samples are `toneSample` of `toneWave` (`frame_getElem?`), whose scaled value stays within full scale. -/
theorem frameSamples : Obligations.FrameSamples := by
  unfold Obligations.FrameSamples
  intro l p onSet vol
  refine ⟨frame_length .., fun i hi => ⟨frame_getElem? p onSet vol hi, fun hvol hnodup hlt => ?_⟩⟩
  have hbound := natAbs_tdiv_le hvol (abs_toneWave_le hi hnodup hlt)
  have hvalue := toInt_toneSample hbound
  rw [List.getD_eq_getElem?_getD, frame_getElem? p onSet vol hi, Option.getD_some]
  exact ⟨hvalue, hvalue ▸ hbound⟩

/-! ### Repeated frames (R148, R153) -/

theorem copies_getElem? {α : Type} {n f i : Nat} {l : List α} (hf : f < n) (hi : i < l.length) :
    (copies n l)[f * l.length + i]? = l[i]? := by
  induction n generalizing f with
  | zero => omega
  | succ n ih =>
    have hsucc : copies (n + 1) l = l ++ copies n l := by simp [copies, List.replicate_succ]
    rw [hsucc]
    cases f with
    | zero => rw [Nat.zero_mul, Nat.zero_add, List.getElem?_append_left hi]
    | succ f =>
      rw [Nat.succ_mul, Nat.add_right_comm, List.getElem?_append_right (Nat.le_add_left ..), Nat.add_sub_cancel]
      exact ih (Nat.lt_of_succ_lt_succ hf)

/-- There are no post-marker frames (R8). -/
theorem preamble_eq_copies (l : Nat) (p : ProtoId) (vol : Nat) :
    preamble l p vol = copies 16 (frame l p (markerSet p) vol) := by
  simp [preamble, nMarkerFrames, nPostMarkerFrames]

theorem copies_frame_getElem? {n f l i : Nat} (p : ProtoId) (onSet : List Nat) (vol : Nat) (hf : f < n) (hi : i < l) :
    (copies n (frame l p onSet vol))[f * l + i]? = (frame l p onSet vol)[i]? := by
  have h := copies_getElem? (l := frame l p onSet vol) hf (by rwa [frame_length])
  rwa [frame_length] at h

/-- The on-set of a data group, bit by bit: bytes at or beyond `txEncLen` read as 0 (R119, R148). -/
theorem mem_groupSet {tx : TxState} {p : ProtoId} {g b : Nat} :
    b ∈ groupSet tx p g ↔
      b < slots p ∧ g * bytesPerGroup p + b / 8 < tx.encLen.toNat ∧
        (tx.enc.getD (g * bytesPerGroup p + b / 8) 0).getLsbD (b % 8) = true := by
  rw [groupSet, List.mem_filter, List.mem_range, groupBit, groupByte]
  split <;> simp [*]

/-- Settles O29: both units are copies of one frame (`copies_frame_getElem?`), and the on-set is a filtered range. -/
theorem unitsAreRepeatedFrames : Obligations.UnitsAreRepeatedFrames := by
  unfold Obligations.UnitsAreRepeatedFrames
  intro l tx p g vol
  refine ⟨preamble_length .., dataGroup_length .., fun f i hf hi => ?_,
    fun f i hf hi => copies_frame_getElem? p _ vol hf hi, fun b => mem_groupSet, List.nodup_range.filter _⟩
  rw [preamble_eq_copies, copies_frame_getElem? p _ vol hf hi]
  rfl

end Sys2Proof.Machine
end

section
/-! PROOFS of the family `44_receive.md`, part 1: the slot decision against the noise floor (O47), and the detection of a marker
(O48) with what one frame does in Analyzing (O49). -/

namespace Sys2Proof.Machine

open Sys2Proof.Config

/-! ### The slot decision (R173) -/

theorem slotOn_iff {rx : RxState} {p : ProtoId} {s : Nat} {m : List Mag} :
    slotOn rx p s m = true ↔ 3 * nfNum rx (binOn p s) < (m.getD (binOn p s) 0).toNat * rx.histCount.toNat := by
  rw [slotOn, decide_eq_true_iff, marginNum, marginDen, Nat.mul_one]

/-- The noise floor as a rational: `nfNum` is its numerator over `histCount` (R133). -/
theorem noiseFloor_eq {rx : RxState} (hc : 0 < rx.histCount.toNat) (k : Nat) :
    max (((rx.histSum.getD (k + 1) 0).toNat : ℚ) / rx.histCount.toNat) 4096 = (nfNum rx k : ℚ) / rx.histCount.toNat := by
  have hc' : (0 : ℚ) < rx.histCount.toNat := Nat.cast_pos.mpr hc
  have hsquelch : (4096 : ℚ) = (4096 * rx.histCount.toNat : ℚ) / rx.histCount.toNat :=
    (mul_div_cancel_right₀ _ hc'.ne').symm
  rw [hsquelch, max_div_div_right hc'.le, nfNum, squelch]
  push_cast
  rfl

/-- Settles O47: the noise floor is a fraction over `histCount` (`noiseFloor_eq`), which the comparison is multiplied by. -/
theorem slotDecisionIsThreeTimesTheFloor : Obligations.SlotDecisionIsThreeTimesTheFloor := by
  unfold Obligations.SlotDecisionIsThreeTimesTheFloor
  intro rx p s m hc
  have hfloor : max (((rx.histSum.getD (fs p + 2 * s + 1) 0).toNat : ℚ) / rx.histCount.toNat) 4096 =
      (nfNum rx (binOn p s) : ℚ) / rx.histCount.toNat := noiseFloor_eq hc _
  rw [hfloor, slotOn_iff, mul_div_assoc', div_lt_iff₀ (Nat.cast_pos.mpr hc)]
  exact_mod_cast Iff.rfl

/-! ### The detection of a marker (R174, R175) -/

theorem markerMatch_iff {rx : RxState} {p : ProtoId} {m : List Mag} :
    markerMatch rx p m = true ↔ ∀ s, s < 16 → slotOn rx p s m = markerOn p s := by
  simp only [markerMatch, List.all_eq_true, List.mem_range, beq_iff_eq, nBitsInMarker]

/-- What R175 asks of a catalog index: usable, and matching in every marker slot. -/
def Matched (cfg : CfgState) (rx : RxState) (m : List Mag) (p : ProtoId) : Prop :=
  protoOk cfg p = true ∧ ∀ s, s < 16 → slotOn rx p s m = markerOn p s

theorem matched_iff {cfg : CfgState} {rx : RxState} {m : List Mag} {p : ProtoId} :
    (protoOk cfg p && markerMatch rx p m) = true ↔ Matched cfg rx m p := by
  rw [Bool.and_eq_true, markerMatch_iff, Matched]

theorem detect_eq_some_iff {cfg : CfgState} {rx : RxState} {m : List Mag} {d : ProtoId} :
    detect cfg rx m = some d ↔ Matched cfg rx m d ∧ ∀ p, p < d → ¬ Matched cfg rx m p := by
  have hleast := List.find?_ofFn_eq_some_of_injective (p := fun p => protoOk cfg p && markerMatch rx p m) (i := d)
    Function.injective_id
  simp only [id, matched_iff] at hleast
  exact hleast

theorem detect_eq_none_iff {cfg : CfgState} {rx : RxState} {m : List Mag} :
    detect cfg rx m = none ↔ ∀ p, ¬ Matched cfg rx m p := by
  simp only [detect, List.find?_eq_none, matched_iff, List.mem_finRange, true_implies]

/-- Two protocols with the same tones do not both match: their marker words differ in some slot. -/
theorem Matched.eq {cfg : CfgState} {rx : RxState} {m : List Mag} {p q : ProtoId} (hp : Matched cfg rx m p)
    (hq : Matched cfg rx m q) (hfs : fs p = fs q) : p = q := by
  by_contra hne
  have hbin : binOn p = binOn q := by unfold binOn; rw [hfs]
  have hslot : ∀ s, slotOn rx p s m = slotOn rx q s m := fun s => by rw [slotOn, slotOn, hbin]
  have hnone : (List.range 16).filter (fun s => markerOn p s != markerOn q s) = [] := by
    refine List.filter_eq_nil_iff.mpr fun s hs => ?_
    rw [← hp.2 s (List.mem_range.mp hs), ← hq.2 s (List.mem_range.mp hs), hslot, bne_self_eq_false]
    exact Bool.false_ne_true
  have htwo := markerOn_differ hne
  rw [hnone] at htwo
  exact absurd htwo (by decide)

/-- Settles O48: `DETECT` takes the first of the matching indices in catalog order. -/
theorem detectionIsTheLeastMatch : Obligations.DetectionIsTheLeastMatch := by
  unfold Obligations.DetectionIsTheLeastMatch
  exact fun _ _ _ _ => ⟨detect_eq_some_iff, detect_eq_none_iff, fun _ _ => Matched.eq⟩

/-! ### One frame in Analyzing (R176 to R179) -/

theorem analyzingStep_of_none {cfg : CfgState} {rx : RxState} {m : List Mag} (h : detect cfg rx m = none) :
    analyzingStep cfg m rx = { rx with cand := none, framesLeftToAnalyze := rx.framesToAnalyze } := by
  rw [analyzingStep, h]

/-- Settles O49: without a detection the run is reset (`analyzingStep_of_none`), with one it is counted, and at 0 the reception
starts (`analyzingStep_of_detect`). -/
theorem analyzingStepCases : Obligations.AnalyzingStepCases := by
  unfold Obligations.AnalyzingStepCases
  refine fun cfg rx m => ⟨analyzingStep_of_none, fun d left hd hleft => ?_⟩
  have hcount : countDetection rx d = left := hleft.symm
  rw [analyzingStep_of_detect hd, countRun, hcount]
  constructor
  · exact fun hne => if_neg hne
  · rintro rfl
    exact if_pos rfl

end Sys2Proof.Machine
end

section
/-! PROOFS of the family `44_receive.md`, part 2: the accumulators of a group (O50), the group decision (O51), Decoding (O54),
and the order of one frame in Receiving (O53). -/

namespace Sys2Proof.Machine

open Sys2Proof.Config

/-! ### The accumulators (R181) -/

theorem accumulates_eq_false_iff {f j : Nat} (hj : j < f) :
    accumulates f j = false ↔ 3 ≤ f ∧ (j = 0 ∨ j = f - 1) := by
  rw [accumulates, Bool.or_eq_false_iff, Bool.and_eq_false_iff]
  simp only [decide_eq_false_iff_not]
  omega

/-- A row of accumulators of which those of the first `s` slots get a share. -/
theorem mapIdx_acc_getD {acc : List (BitVec 64)} {s b : Nat} {v : Nat → BitVec 64} (hb : b < acc.length) :
    (acc.mapIdx fun b a => if b < s then a + v b else a).getD b 0 = acc.getD b 0 + if b < s then v b else 0 := by
  rw [List.getD_eq_getElem _ _ hb, List.getD_eq_getElem _ _ (by rwa [List.length_mapIdx]), List.getElem_mapIdx]
  split
  · rfl
  · exact (BitVec.add_zero _).symm

/-- Settles O50: the frames that count by arithmetic; their shares slot by slot (`mapIdx_acc_getD`), the frame by
`accumulate_frame`. -/
theorem accumulationSkipsEdgeFrames : Obligations.AccumulationSkipsEdgeFrames := by
  unfold Obligations.AccumulationSkipsEdgeFrames
  refine ⟨fun _ _ => accumulates_eq_false_iff, fun rx p m j => ⟨fun hskip => ?_, fun huse => ?_⟩⟩
  · rw [accumulate, hskip]
    rfl
  · refine ⟨(accumulate_frame rx p m j).1, fun b hon hnf => ?_⟩
    rw [accumulate, if_pos huse]
    exact ⟨mapIdx_acc_getD (v := fun b => _) hon, mapIdx_acc_getD (v := fun b => _) hnf⟩

/-! ### The group decision (R182) -/

theorem byteOfBits_getLsbD_eq (bits : Nat → Bool) (i : Nat) {j : Nat} (hj : j < 8) :
    (byteOfBits bits i).getLsbD j = bits (8 * i + j) := by
  have hbyte : byteOfBits bits i = BitVec.ofFnLE fun j : Fin 8 => bits (8 * i + j) :=
    byteOfBits_eq fun j hj => by rw [BitVec.getLsbD_ofFnLE, dif_pos hj]
  rw [hbyte, BitVec.getLsbD_ofFnLE, dif_pos hj]

theorem groupDecision_iff {rx : RxState} {b : Nat} :
    groupDecision rx b = true ↔ 3 * (rx.accNf.getD b 0).toNat < (rx.accOn.getD b 0).toNat := by
  rw [groupDecision, decide_eq_true_iff, marginNum, marginDen, Nat.mul_one]

section
variable {α : Type} {buf data : List α} {off i : Nat} {a : α} (h : off + data.length ≤ buf.length)
include h

theorem overwrite_getD_inside (hi : i < data.length) : (overwrite buf off data).getD (off + i) a = data[i] := by
  rw [List.getD_eq_getElem?_getD, overwrite_getElem?_inside buf off data hi (by omega), List.getElem?_eq_getElem hi,
    Option.getD_some]

theorem overwrite_getD_outside (hi : i < off ∨ off + data.length ≤ i) : (overwrite buf off data).getD i a = buf.getD i a := by
  rw [List.getD_eq_getElem?_getD, List.getD_eq_getElem?_getD]
  obtain hi | hi := hi
  · rw [overwrite_getElem?_before buf off data hi (by omega)]
  · rw [overwrite_getElem?_after buf off data hi (by omega)]

end

/-- Settles O51: the `K` decided bytes overwrite the group's range of `rxEnc`, bit `j` of byte `i` being slot `8i + j`'s
decision (`byteOfBits_getLsbD_eq`). -/
theorem groupDecisionWritesItsBytes : Obligations.GroupDecisionWritesItsBytes := by
  unfold Obligations.GroupDecisionWritesItsBytes
  intro rx p g hroom
  have hlen : ((List.range (bytesPerGroup p)).map (byteOfBits (groupDecision rx))).length = bytesPerGroup p := by
    rw [List.length_map, List.length_range]
  have hfit := (Nat.add_le_add_left hlen.le _).trans hroom
  refine ⟨rfl, overwrite_length _ _ _ hfit, fun i j hi hj => ?_, fun a ha => ?_⟩
  · rw [decideGroup_enc, overwrite_getD_inside hfit (hlen.symm ▸ hi), List.getElem_map, List.getElem_range,
      byteOfBits_getLsbD_eq _ _ hj, groupDecision_iff]
  · rw [decideGroup_enc]
    exact overwrite_getD_outside hfit (hlen.symm ▸ ha)

/-! ### Decoding (R184 to R187) -/

theorem decoding_of_none {c : EccCode} {rx : RxState} (h : fecDecode c rx.enc (bytesPerGroup rx.curProto) = none) :
    decoding c rx = returnToAnalyzing rx := by
  rw [decoding, h]

theorem decoding_of_some {c : EccCode} {rx : RxState} {d : Decoded}
    (h : fecDecode c rx.enc (bytesPerGroup rx.curProto) = some d) : decoding c rx = returnToAnalyzing (surface rx d) := by
  rw [decoding, h]

/-- Settles O54: both outcomes of `FEC_DECODE`, the payload written at the front of `rxData`. -/
theorem decodingSurfacesOrDrops : Obligations.DecodingSurfacesOrDrops := by
  unfold Obligations.DecodingSurfacesOrDrops
  refine fun c rx => ⟨decoding_of_none, fun d hd => ?_⟩
  obtain ⟨h1, h140, -⟩ := fecDecode_bounds hd
  refine ⟨h1, h140, ?_⟩
  rw [decoding_of_some hd, surface, overwrite_zero]
  rfl

/-! ### The order of one frame in Receiving (R180) -/

section
variable {c : EccCode} {m : List Mag} {x : List Word} {rx : RxState}

/-- The rest of the marker and the lead-in are only recorded and counted. -/
theorem hearFrame_of_lt (h : recordedIndex rx < 8) : hearFrame c m x rx = recordFrame x rx :=
  if_neg (Nat.not_le.mpr h)

theorem hearFrame_of_le (h : 8 ≤ recordedIndex rx) :
    hearFrame c m x rx = groupStep c m (recordedIndex rx) (recordFrame x rx) :=
  if_pos h

end

/-- Settles O53: `hearFrame` is the frame before Decoding; from frame 8 on it is a frame of a group, the group's last or not. -/
theorem receivingStepOrder : Obligations.ReceivingStepOrder := by
  unfold Obligations.ReceivingStepOrder
  intro c m x rx p r g j counted decided next
  have hnext : hearFrame c m x rx = next := by
    by_cases hr : r < 8
    · exact (hearFrame_of_lt hr).trans (if_pos hr).symm
    rw [hearFrame_of_le (Nat.le_of_not_lt hr)]
    refine Eq.trans ?_ (if_neg hr).symm
    by_cases hj : j = framesPerGroup p - 1
    · -- the header group written out is `headerGroup (bytesPerGroup p)` (R117)
      exact (if_pos hj).trans (if_neg (not_not.mpr hj)).symm
    · exact (groupStep_of_inner (rx := counted) rfl hj).trans (if_pos hj).symm
  rw [receivingStep_eq, hnext]

end Sys2Proof.Machine
end

section
/-! PROOFS of the family `44_receive.md`, part 3: a reception counts down with every frame and ends (O55), and quiet input never
starts one (O56). -/

namespace Sys2Proof.Machine

open Sys2Proof.Config

/-! ### What one frame of a reception writes (R180) -/

/-- A frame of a group writes the accumulators, `rxEnc` and the recording counters; the duration only in group 1, the header
group. -/
theorem groupStep_frame (c : EccCode) (m : List Mag) (r : Nat) (rx : RxState) :
    ∃ on nf enc total left, groupStep c m r rx =
        { rx with accOn := on, accNf := nf, enc := enc, framesToRecord := total, framesLeftToRecord := left } ∧
      ((r - 8) / framesPerGroup rx.curProto ≠ 1 → total = rx.framesToRecord) := by
  by_cases hlast : (r - 8) % framesPerGroup rx.curProto = framesPerGroup rx.curProto - 1
  · obtain ⟨total, left, hstep, hkeep, -⟩ := groupStep_of_last (c := c) (v := m) rfl hlast rfl
    exact ⟨_, _, _, total, left, hstep, hkeep⟩
  · rw [groupStep_of_inner rfl hlast, (accumulate_frame ..).1]
    exact ⟨_, _, _, _, _, rfl, fun _ => rfl⟩

/-- A frame before Decoding: recorded, its protocol kept, the duration changed at most in the header group. -/
theorem hearFrame_frame (c : EccCode) (m : List Mag) (x : List Word) (rx : RxState) :
    (hearFrame c m x rx).recorded = rx.recorded ++ [x] ∧ (hearFrame c m x rx).curProto = rx.curProto ∧
    ((recordedIndex rx - 8) / framesPerGroup rx.curProto ≠ 1 →
      (hearFrame c m x rx).framesToRecord = rx.framesToRecord) := by
  by_cases hr : recordedIndex rx < 8
  · rw [hearFrame_of_lt hr]
    exact ⟨rfl, rfl, fun _ => rfl⟩
  · obtain ⟨on, nf, enc, total, left, hstep, hkeep⟩ := groupStep_frame c m (recordedIndex rx) (recordFrame x rx)
    rw [hearFrame_of_le (Nat.le_of_not_lt hr), hstep]
    exact ⟨rfl, rfl, hkeep⟩

theorem decoding_analyzing (c : EccCode) (rx : RxState) : (decoding c rx).analyzing = true := by
  obtain ⟨rx', heq, -⟩ := decoding_returns c rx
  rw [heq, returnToAnalyzing_analyzing]

/-- A frame ends the reception, or leaves what `hearFrame` leaves. -/
theorem receivingStep_cases (c : EccCode) (m : List Mag) (x : List Word) (rx : RxState) :
    (receivingStep c m x rx).analyzing = true ∨ receivingStep c m x rx = hearFrame c m x rx := by
  rw [receivingStep_eq]
  split
  · exact .inl (decoding_analyzing c _)
  · exact .inr rfl

/-! ### The countdown (R188) -/

/-- The frame that takes the reception `rx` to `t` ends it, or takes at least one off its counter. -/
def CountsDown (rx t : RxState) : Prop :=
  t.analyzing = true ∨ (t.receiving = true ∧ t.framesLeftToRecord.toNat + 1 ≤ rx.framesLeftToRecord.toNat)

section
variable {cfg : CfgState} {rx : RxState}

/-- The header refinement never lengthens the recording: up to the header group the duration is the longest one (R183). -/
theorem RxInv.framesToRecord_hearFrame_le (h : RxInv cfg rx) (hr : rx.receiving = true) {c : EccCode} {m : List Mag}
    {x : List Word} (ht : RxInv cfg (hearFrame c m x rx)) (htr : (hearFrame c m x rx).receiving = true) :
    (hearFrame c m x rx).framesToRecord.toNat ≤ rx.framesToRecord.toNat := by
  obtain ⟨-, hproto, hkeep⟩ := hearFrame_frame c m x rx
  by_cases hheader : (recordedIndex rx - 8) / framesPerGroup rx.curProto = 1
  · have hF := (framesPerGroup_bounds rx.curProto).1
    have hlt : recordedIndex rx - 8 < 2 * framesPerGroup rx.curProto :=
      (Nat.div_lt_iff_lt_mul (by omega)).mp (by omega)
    have hprov : rx.framesToRecord.toNat = longestRecording rx.curProto := by
      refine h.provisional hr ?_
      rw [bytesPerGroup_eq, show headerGroup 3 + 1 = 2 from rfl, show encDataOffset = 8 from rfl]
      omega
    rw [hprov, ← hproto]
    exact (ht.recording htr).framesToRecord_le
  · rw [hkeep hheader]

theorem RxInv.receivingStep_countdown (h : RxInv cfg rx) (hr : rx.receiving = true) (c : EccCode) (m : List Mag)
    (x : List Word) : CountsDown rx (Machine.receivingStep c m x rx) := by
  have ht := h.receivingStep hr c m x
  cases ha : (Machine.receivingStep c m x rx).analyzing with
  | true => exact .inl ha
  | false =>
    have htr := ht.receiving_of_not_analyzing ha
    refine .inr ⟨htr, ?_⟩
    have heq := (receivingStep_cases c m x rx).resolve_left (by rw [ha]; exact Bool.false_ne_true)
    rw [heq] at ht htr ⊢
    have hle := h.framesToRecord_hearFrame_le hr ht htr
    have hrec := h.recording hr
    have hrec' := ht.recording htr
    have hlength := hrec'.recorded_length
    rw [(hearFrame_frame c m x rx).1, List.length_append, hrec.recorded_length, List.length_singleton] at hlength
    have hcount := hrec.count
    have hcount' := hrec'.count
    omega

theorem RxInv.processSpectrum_countdown (h : RxInv cfg rx) (hr : rx.receiving = true) (c : EccCode) {m : List Mag}
    (hm : m.length = cfg.nBins.toNat) (x : List Word) : CountsDown rx (Machine.processSpectrum cfg c m x rx) := by
  rw [processSpectrum_of_receiving (h.recording hr).analyzing_eq]
  exact (h.analyze hm).receivingStep_countdown hr c m x

theorem RxInv.framesLeftToRecord_bounds (h : RxInv cfg rx) (hr : rx.receiving = true) :
    1 ≤ rx.framesLeftToRecord.toNat ∧ rx.framesLeftToRecord.toNat ≤ 1024 := by
  obtain ⟨-, -, -, hpos, hle, hlong, -⟩ := h.receiving_counters hr
  exact ⟨hpos, hle.trans (hlong.trans (longestRecording_le _))⟩

/-- As many frames as are left, whatever they hold, end the reception. -/
theorem RxInv.reception_ends {c : EccCode} {fs : List (List Mag × List Word)}
    (hfs : ∀ f ∈ fs, f.1.length = cfg.nBins.toNat) (h : RxInv cfg rx) (hr : rx.receiving = true)
    (hleft : rx.framesLeftToRecord.toNat ≤ fs.length) :
    ∃ n, 1 ≤ n ∧ n ≤ fs.length ∧ (processSpectra cfg c (fs.take n) rx).analyzing = true := by
  induction fs generalizing rx with
  | nil =>
    have hpos := (h.framesLeftToRecord_bounds hr).1
    exact absurd (hpos.trans hleft) (by decide)
  | cons f later ih =>
    obtain ⟨hf, hlater⟩ := List.forall_mem_cons.mp hfs
    rw [List.length_cons] at hleft ⊢
    obtain hdone | ⟨hr', hdown⟩ := h.processSpectrum_countdown hr c hf f.2
    · exact ⟨1, le_rfl, Nat.succ_le_succ (Nat.zero_le _), hdone⟩
    · obtain ⟨n, -, hn, hends⟩ := ih hlater (h.processSpectrum c hf f.2) hr' (by omega)
      exact ⟨n + 1, Nat.succ_le_succ (Nat.zero_le n), Nat.succ_le_succ hn, hends⟩

/-- Settles O55: every frame takes at least one off a counter of at most 1024 (`processSpectrum_countdown`), and no reception
goes on with none left (`reception_ends`). -/
theorem receptionCountsDownAndEnds : Obligations.ReceptionCountsDownAndEnds := by
  unfold Obligations.ReceptionCountsDownAndEnds
  intro cfg c rx h hr
  exact ⟨fun m x hm => h.processSpectrum_countdown hr c hm x, (h.framesLeftToRecord_bounds hr).2,
    fun fs hfs hlength => h.reception_ends hfs hr hlength.ge⟩

end

/-! ### Quiet input (R189) -/

/-- A spectrum within the margin over the squelch. -/
def Quiet (m : List Mag) : Prop := ∀ v ∈ m, v.toNat ≤ 12288

section
variable {cfg : CfgState} {rx : RxState} {m : List Mag}

theorem Quiet.getD_le (h : Quiet m) (k : Nat) : (m.getD k 0).toNat ≤ 12288 := by
  by_cases hk : k < m.length
  · rw [List.getD_eq_getElem _ _ hk]
    exact h _ (List.getElem_mem hk)
  · rw [List.getD_eq_default _ _ (Nat.le_of_not_lt hk)]
    exact Nat.zero_le _

/-- The noise floor is never below the squelch, so a quiet magnitude stays within the margin. -/
theorem Quiet.slotOn_eq_false (h : Quiet m) (rx : RxState) (p : ProtoId) (s : Nat) : slotOn rx p s m = false := by
  rw [Bool.eq_false_iff, Ne, slotOn_iff, Nat.not_lt]
  calc (m.getD (binOn p s) 0).toNat * rx.histCount.toNat
    _ ≤ 12288 * rx.histCount.toNat := Nat.mul_le_mul_right _ (h.getD_le _)
    _ = 3 * (4096 * rx.histCount.toNat) := by omega
    _ ≤ 3 * nfNum rx (binOn p s) := Nat.mul_le_mul_left 3 (le_max_right ..)

/-- Slot 0 is on in every marker word. -/
theorem Quiet.detect_eq_none (h : Quiet m) (cfg : CfgState) (rx : RxState) : detect cfg rx m = none := by
  refine detect_eq_none_iff.mpr fun p ⟨_, hmatch⟩ => ?_
  have hzero := hmatch 0 (by decide)
  rw [h.slotOn_eq_false, markerOn_fixed p (by decide)] at hzero
  exact absurd hzero (by decide)

/-- Analyzing, with no run of detections. -/
structure Idle (cfg : CfgState) (rx : RxState) : Prop where
  inv : RxInv cfg rx
  analyzing : rx.analyzing = true
  left : rx.framesLeftToAnalyze = rx.framesToAnalyze

/-- One quiet frame makes the engine idle, from anywhere in Analyzing. -/
theorem Quiet.idle_processSpectrum (hq : Quiet m) (hm : m.length = cfg.nBins.toNat) (h : RxInv cfg rx)
    (ha : rx.analyzing = true) (c : EccCode) (x : List Word) : Idle cfg (processSpectrum cfg c m x rx) := by
  have hinv := h.processSpectrum c hm x
  rw [processSpectrum_of_analyzing ha, analyzingStep_of_none (hq.detect_eq_none cfg _)] at hinv ⊢
  exact ⟨hinv, ha, rfl⟩

theorem Idle.processSpectra {c : EccCode} {fs : List (List Mag × List Word)} (h : Idle cfg rx)
    (hfs : ∀ f ∈ fs, f.1.length = cfg.nBins.toNat ∧ Quiet f.1) : Idle cfg (Machine.processSpectra cfg c fs rx) := by
  induction fs generalizing rx with
  | nil => exact h
  | cons f later ih =>
    obtain ⟨⟨hm, hq⟩, hlater⟩ := List.forall_mem_cons.mp hfs
    exact ih (hq.idle_processSpectrum hm h.inv h.analyzing c f.2) hlater

end

/-- Settles O56: no slot of a quiet spectrum is on (`Quiet.slotOn_eq_false`); the first quiet frame makes the engine idle
(`Quiet.idle_processSpectrum`), and the others leave it so (`Idle.processSpectra`). -/
theorem quietInputNeverTriggers : Obligations.QuietInputNeverTriggers := by
  unfold Obligations.QuietInputNeverTriggers
  refine ⟨fun cfg rx m (hq : Quiet m) => ⟨hq.slotOn_eq_false rx, hq.detect_eq_none cfg rx⟩, ?_⟩
  intro cfg c fs rx h ha hne hfs
  obtain ⟨f, later, rfl⟩ := List.exists_cons_of_ne_nil hne
  obtain ⟨⟨hm, hq⟩, hlater⟩ := List.forall_mem_cons.mp hfs
  have hidle : Idle cfg (processSpectra cfg c (f :: later) rx) :=
    (Quiet.idle_processSpectrum hq hm h ha c f.2).processSpectra hlater
  refine ⟨hidle.analyzing, hidle.inv.not_receiving_of_analyzing hidle.analyzing, ?_⟩
  rw [hidle.left]
  exact hidle.inv.framesToAnalyze_eq

end Sys2Proof.Machine
end

section
/-! PROOFS of the family `45_rx_accessors.md`: the state observers (O36), the frame counters (O37) and `RXTAKE` (O39). -/

namespace Sys2Proof.Machine

/-! ### The state observers (R200, R201) -/

/-- Settles O36: both commands are plain answers. -/
theorem stateObservers : Obligations.StateObservers := by
  unfold Obligations.StateObservers
  exact fun s hc => ⟨whenConfigured_of_legal hc _, whenConfigured_of_legal hc _⟩

/-! ### The frame counters (R202 to R205) -/

/-- Settles O37: the four commands are plain answers, each counter's number as a word being its zero extension. -/
theorem frameCounters : Obligations.FrameCounters := by
  unfold Obligations.FrameCounters
  intro s hc
  simp only [BitVec.ofNat_toNat]
  exact ⟨whenConfigured_of_legal hc _, whenConfigured_of_legal hc _, whenConfigured_of_legal hc _,
    whenConfigured_of_legal hc _⟩

/-! ### `RXTAKE` (R207) -/

/-- Settles O39: the answer after the hand-over, the length as a word being its zero extension. -/
theorem rxtakeHandsOverThePayload : Obligations.RxtakeHandsOverThePayload := by
  unfold Obligations.RxtakeHandsOverThePayload
  intro s hc
  rw [exec, execRxtake, whenConfigured_of_legal hc, answer_eq, pushHdo, BitVec.ofNat_toNat]

end Sys2Proof.Machine
end

section
/-! PROOFS of the family `46_system.md`: the `STATUS` word (O15). -/

namespace Sys2Proof.Machine

/-! ### The bits of `STATUS` (R221) -/

/-- The flags of `STATUS`, from bit 0 up (R221). -/
def statusFlags (s : State) : List Bool :=
  [s.tx.hasData, s.rx.analyzing, s.rx.receiving, s.rx.rxNew, s.rx.specNew, tx16Flag s, s.rx.corrected]

/-- A flag appended below a word stands in front of the flags the word holds. -/
theorem getLsbD_append_ofBool {n : Nat} {x : BitVec n} {flags : List Bool}
    (h : ∀ i, x.getLsbD i = flags.getD i false) (b : Bool) (i : Nat) :
    (x ++ BitVec.ofBool b).getLsbD i = (b :: flags).getD i false := by
  cases i with
  | zero => exact BitVec.getLsbD_concat_zero
  | succ i => exact BitVec.getLsbD_concat_succ.trans (h i)

theorem statusWord_getLsbD (s : State) : ∀ i, (statusWord s).getLsbD i = (statusFlags s).getD i false := by
  have hreserved : ∀ i, (0 : BitVec 25).getLsbD i = [].getD i false := fun _ => BitVec.getLsbD_zero
  iterate 7 refine getLsbD_append_ofBool ?_ _
  exact hreserved

theorem tx16Flag_iff (s : State) : tx16Flag s = true ↔ s.tx.amp16Count.toNat ≠ 0 :=
  bne_iff_ne.trans BitVec.toNat_ne_iff_ne.symm

/-! ### `STATUS` after reset -/

theorem statusFlags_afterReset (b : Config.Primitives) (p : Config.Straps) :
    statusFlags (State.afterReset b p) = [false, true, false, false, false, false, false] := rfl

theorem statusWord_afterReset (b : Config.Primitives) (p : Config.Straps) :
    statusWord (State.afterReset b p) = 2#32 := by
  refine BitVec.eq_of_getLsbD_eq fun i hi => ?_
  rw [statusWord_getLsbD, statusFlags_afterReset]
  revert i
  decide

/-- Settles O15: the bits are the flags in order and nothing above them (`statusWord_getLsbD`); register 14 is `STATUS`, where
reset leaves `ANA` alone set (`statusWord_afterReset`). -/
theorem statusWordBits : Obligations.StatusWordBits := by
  unfold Obligations.StatusWordBits
  refine ⟨fun s => ?_, fun b p hp => ?_⟩
  · simp only [statusWord_getLsbD]
    exact ⟨rfl, rfl, rfl, rfl, rfl, tx16Flag_iff s, rfl, fun i hi => List.getD_eq_default _ _ hi⟩
  · have hc : (State.afterReset b p).cfg.cfgFault = false := by
      rw [State.afterReset, CfgState.cfgFault_afterReset, hp, Bool.not_true]
    exact execRdreg_of_some (idx := 14) hc (congrArg some (statusWord_afterReset b p))

end Sys2Proof.Machine
end
